-- ==== Sys2Proof/Word.lean ====
section
/-! DEFINITION. The two word types of the MPCX core (spec/00_scope.md R16): bytes and 32-bit host
register words. -/

namespace Sys2Proof

/-- A sample, index, palette channel or code byte (R16). -/
abbrev Byte := BitVec 8

/-- A host register word (R16, R34). -/
abbrev Word := BitVec 32

end Sys2Proof
end

