-- ==== Sys2Proof/Machine/Bits.lean ====
section
/-! DEFINITION. The marker test (spec/00_scope.md R21) and the byte-order helpers (R19, R80): every
multi-byte field is little-endian. -/

namespace Sys2Proof

/-- "its top two bits are both set" (R21). -/
def isMarker (b : Byte) : Bool := (b &&& 0xC0#8) == 0xC0#8

/-- `le16(b0, b1) = b0 | (b1 << 8)` (R19). -/
def le16 (b0 b1 : Byte) : BitVec 16 := b1 ++ b0

/-- `le32(b0, b1, b2, b3)` (R19). -/
def le32 (b0 b1 b2 b3 : Byte) : Word := ((b3 ++ b2) ++ b1) ++ b0

/-- `LE16(v) = [v[7:0], v[15:8]]` (R19). -/
def toLE16 (v : Nat) : List Byte := [BitVec.ofNat 8 v, BitVec.ofNat 8 (v >>> 8)]

/-- `LE32(v)` (R19). -/
def toLE32 (v : Nat) : List Byte :=
  [BitVec.ofNat 8 v, BitVec.ofNat 8 (v >>> 8), BitVec.ofNat 8 (v >>> 16), BitVec.ofNat 8 (v >>> 24)]

/-- `ceil(x / y)` for positive `y` (R18). -/
def ceilDiv (x y : Nat) : Nat := (x + (y - 1)) / y

/-- Element `i` of a byte list, for lists whose length the caller knows. -/
def byteAt (bs : List Byte) (i : Nat) : Byte := bs.getD i 0

end Sys2Proof
end

