-- ==== Sys2Proof/Syntax.lean ====
section
/-! DEFINITION. The instructions: the two code forms of the run-length stream (spec/30_encoding.md R100)
and the fifteen host commands (R107). The opcode table's two LIT rows are the two halves of one form's
encoding (R180), so they are one constructor (log 20). -/

namespace Sys2Proof

/-- One instruction of either level (spec/00_scope.md R3). -/
inductive Instr where
  /-- LIT (R180): one copy of `v`; well-formed when `v` is no marker. -/
  | lit (v : Byte)
  /-- RUN (R181): `n` copies of `v`. -/
  | run (n : BitVec 6) (v : Byte)
  | nop
  | decode
  | probe
  | loadIndexed
  | loadTruecolor
  | readIndex
  | readPalette
  | readPixels
  | clear
  | rleDecode
  | rleEncode
  | writePcx
  | writeIco
  | writeBmp
  | writeBmpa
  deriving DecidableEq, Repr

end Sys2Proof
end

