-- ==== Sys2Proof/Decode.lean ====
section
/-! DEFINITION. Decoding code bytes (spec/30_encoding.md R100 to R103) and command words (R106 to R109),
the encoder, and the listing notation with its pseudo-instructions (R112, R113). -/

namespace Sys2Proof

/-- What the core decodes: code bytes of the input sequence, or a word written to CMD. -/
inductive Fetched where
  | code (bytes : List Byte)
  | command (word : Word)
  deriving DecidableEq, Repr

/-- Why a fetched item is no instruction. -/
inductive Reject where
  /-- No code byte is there. -/
  | noByte
  /-- A marker byte without its value byte (R102, R186). -/
  | missingValue
  /-- Bits [31:8] of a command word are not zero (R106). -/
  | mustBeZero
  /-- An opcode outside the table of R107. -/
  | unknownOpcode (op : Byte)
  deriving DecidableEq, Repr

/-- One code from the front of a byte list, and the bytes after it (R100 to R102). -/
def decodeCode : List Byte → Except Reject (Instr × List Byte)
  | [] => .error .noByte
  | b :: rest =>
    if isMarker b then
      match rest with
      | [] => .error .missingValue
      | v :: rest' => .ok (.run (b.extractLsb' 0 6) v, rest')
    else .ok (.lit b, rest)

/-- The opcode map of R107, row by row. -/
def opcodeTable : List (Byte × Instr) :=
  [ (0x00#8, .nop), (0x01#8, .decode), (0x02#8, .probe), (0x03#8, .loadIndexed),
    (0x04#8, .loadTruecolor), (0x05#8, .readIndex), (0x06#8, .readPalette),
    (0x07#8, .readPixels), (0x08#8, .clear), (0x10#8, .rleDecode), (0x11#8, .rleEncode),
    (0x20#8, .writePcx), (0x21#8, .writeIco), (0x22#8, .writeBmp), (0x23#8, .writeBmpa) ]

/-- The exact match of R109. -/
def decodeOpcode (op : Byte) : Option Instr := opcodeTable.lookup op

/-- Bits [31:8] of a command word (R106). -/
def commandMbz (w : Word) : BitVec 24 := w.extractLsb' 8 24

/-- Bits [7:0] of a command word (R106). -/
def commandOpcode (w : Word) : Byte := w.extractLsb' 0 8

/-- A command word (R106, R107, R109). -/
def decodeCommand (w : Word) : Except Reject Instr :=
  if commandMbz w ≠ 0#24 then .error .mustBeZero
  else
    match decodeOpcode (commandOpcode w) with
    | some i => .ok i
    | none => .error (.unknownOpcode (commandOpcode w))

/-- The decoder: total, refusing by name. -/
def decode : Fetched → Except Reject Instr
  | .code bytes =>
    match decodeCode bytes with
    | .ok r => .ok r.1
    | .error e => .error e
  | .command w => decodeCommand w

/-- The encoder: a code form's bytes (R100) or a command's word (R107). -/
def encode : Instr → Fetched
  | .lit v => .code [v]
  | .run n v => .code [0xC0#8 ||| n.setWidth 8, v]
  | .nop => .command 0x00#32
  | .decode => .command 0x01#32
  | .probe => .command 0x02#32
  | .loadIndexed => .command 0x03#32
  | .loadTruecolor => .command 0x04#32
  | .readIndex => .command 0x05#32
  | .readPalette => .command 0x06#32
  | .readPixels => .command 0x07#32
  | .clear => .command 0x08#32
  | .rleDecode => .command 0x10#32
  | .rleEncode => .command 0x11#32
  | .writePcx => .command 0x20#32
  | .writeIco => .command 0x21#32
  | .writeBmp => .command 0x22#32
  | .writeBmpa => .command 0x23#32

/-- The bytes of one code; a command has none in the code stream. -/
def codeBytes (i : Instr) : List Byte :=
  match encode i with
  | .code bytes => bytes
  | .command _ => []

/-- The two code bytes of a table word, the first byte in bits [7:0]. -/
def tableCodeBytes (w : Nat) : List Byte := [BitVec.ofNat 8 w, BitVec.ofNat 8 (w >>> 8)]

/-- The instruction the decoder reads from a word numbered as spec/opcode_table.json numbers it: rows
of 8 or 16 bits are code bytes (the second byte zero where the table gives none), rows of 32 bits are
command words. -/
def decodeTableWord (nbits w : Nat) : Option Instr :=
  if nbits = 8 ∨ nbits = 16 then
    if w < 2 ^ nbits then (decode (.code (tableCodeBytes w))).toOption else none
  else if nbits = 32 then
    if w < 2 ^ 32 then (decode (.command (BitVec.ofNat 32 w))).toOption else none
  else none

/-- One line of a code listing (R112, R113). -/
inductive ListingLine where
  | lit (v : Nat)
  | run (n v : Nat)
  | byte (v : Nat)
  | rep (n v : Nat)
  deriving DecidableEq, Repr

/-- `BYTE v` (R113). -/
def expandByte (v : Byte) : Instr := if isMarker v then .run 1#6 v else .lit v

/-- `REP n, v` (R113): full runs of 63, then the remainder in its shortest form. -/
def expandRep (n : Nat) (v : Byte) : List Instr :=
  let r := n % 63
  List.replicate (n / 63) (.run 63#6 v) ++
    (if r = 0 then []
     else if 3 ≤ r then [.run (BitVec.ofNat 6 r) v]
     else if isMarker v then [.run (BitVec.ofNat 6 r) v]
     else List.replicate r (.lit v))

/-- The codes one line spells, or none where the line is an assembly error (R112). -/
def expandLine : ListingLine → Option (List Instr)
  | .lit v => if v < 256 ∧ isMarker (BitVec.ofNat 8 v) = false then some [.lit (BitVec.ofNat 8 v)] else none
  | .run n v => if n ≤ 63 ∧ v < 256 then some [.run (BitVec.ofNat 6 n) (BitVec.ofNat 8 v)] else none
  | .byte v => if v < 256 then some [expandByte (BitVec.ofNat 8 v)] else none
  | .rep n v => if 1 ≤ n ∧ v < 256 then some (expandRep n (BitVec.ofNat 8 v)) else none

/-- Assembling a listing: each line's bytes in order (R112). -/
def assemble : List ListingLine → Option (List Byte)
  | [] => some []
  | line :: rest =>
    match expandLine line, assemble rest with
    | some is, some bytes => some (is.flatMap codeBytes ++ bytes)
    | _, _ => none

end Sys2Proof
end

