-- ==== Sys2Proof/Config.lean ====
section
/-! DEFINITION. The configuration record of spec/00_scope.md R9 to R15 (R31: it is a parameter of the
model, not state) and the free values of the model: opaque constants of which nothing can be proved. -/

namespace Sys2Proof

/-- `LINE_RUN_POLICY` (R11): what becomes of the part of a run past the end of a scanline. -/
inductive LineRunPolicy where
  | clip
  | carry
  deriving DecidableEq, Repr

/-- `VARIANT` (R12): the format variant, of which one exists. -/
inductive Variant where
  | mugen
  deriving DecidableEq, Repr

/-- `PCX_LINE_PAD` (R13): the layout of each scanline the round-trip writer emits. -/
inductive PcxLinePad where
  | unpadded
  | padToBpl
  deriving DecidableEq, Repr

/-- `PCX_HDR_WRITE` (R14, R156): every header byte the reader ignores. `fallback` is the 48 bytes of
the table and `filler` the 54 bytes of padding. -/
structure PcxHdrWrite where
  sig : Byte
  ver : Byte
  enc : Byte
  hres : BitVec 16
  vres : BitVec 16
  fallback : List Byte
  reserved : Byte
  palinfo : BitVec 16
  hscreen : BitVec 16
  vscreen : BitVec 16
  filler : List Byte
  deriving DecidableEq, Repr

/-- The whole configuration (R9 to R15 but `PLANE_FILL`, which is a draw per DECODE, and R83's
`MPCX_BASE`). -/
structure Config where
  bufPixels : Nat
  lineRunPolicy : LineRunPolicy
  variant : Variant
  pcxLinePad : PcxLinePad
  pcxHdrWrite : PcxHdrWrite
  nInstances : Nat
  mpcxBase : Nat
  deriving DecidableEq, Repr

/-- The largest `BUF_PIXELS` that R9 admits: 122 + 4 × `BUF_PIXELS` < 2^32. -/
def Config.maxPixels : Nat := 1073741793

/-- What R9, R14, R15, R156 and R83 ask of a configuration. -/
abbrev Config.Ok (c : Config) : Prop :=
  0 < c.bufPixels ∧ 122 + 4 * c.bufPixels < 2 ^ 32 ∧ 0 < c.nInstances ∧ c.mpcxBase % 256 = 0 ∧
    c.pcxHdrWrite.fallback.length = 48 ∧ c.pcxHdrWrite.filler.length = 54

/-- The place of a free value: the core that draws it, and how many it drew before. Different cores draw
from different places, so nothing relates their free values (R15; log 3). -/
structure Draw where
  core : Nat
  count : Nat
  deriving DecidableEq, Repr

/-- The core's next place. -/
def Draw.next (d : Draw) : Draw := { d with count := d.count + 1 }

/-- Free value behind `BUF_PIXELS` (R9: OPEN). Log 1. -/
opaque Config.freeBufPixels : Nat

/-- Free value behind `N_INSTANCES` (R15: OPEN). Log 1. -/
opaque Config.freeInstances : Nat

/-- Free value behind `MPCX_BASE` (R83: OPEN). Log 1. -/
opaque Config.freeBase : Nat

/-- `PLANE_FILL` (R10): OPEN, one draw for each DECODE. The argument is `State.freeIx`. Log 2. -/
opaque Config.planeFill : Draw → Byte

/-- A byte of contents the spec calls unspecified (R55 to R60, R361, R369): the position's value in
one draw. Log 6, 7. -/
opaque Config.unspecByte : Draw → Nat → Byte

/-- What a register reads as while BUSY (R448: "a model returns any value"). Log 12. -/
opaque Config.busyWord : Draw → Word

/-- How many bytes of an unfinished command's output the host's port holds (R442). Log 11, 17. -/
opaque Config.freeLength : Draw → Nat

end Sys2Proof
end

