-- ==== Sys2Proof/Machine/Defaults.lean ====
section
/-! DEFINITION. The configuration that `State.reset` carries: the defaults of spec/00_scope.md R11,
R13 and R14 (40_header.md R156), and open constants where R9, R15 and R83 say OPEN (log 1). -/

namespace Sys2Proof.Machine

/-- `PCX_HDR_WRITE`'s default values (R156). -/
def defaultHdrWrite : PcxHdrWrite where
  sig := 0x0A#8
  ver := 0x05#8
  enc := 0x01#8
  hres := 0#16
  vres := 0#16
  fallback := List.replicate 48 0#8
  reserved := 0#8
  palinfo := 1#16
  hscreen := 0#16
  vscreen := 0#16
  filler := List.replicate 54 0#8

/-- `BUF_PIXELS` (R9): some value the rule admits, and nothing more is known of it. Log 1. -/
def openBufPixels : Nat := Config.maxPixels - Config.freeBufPixels % Config.maxPixels

/-- The configuration at reset. Log 1. -/
def defaultConfig : Config where
  bufPixels := openBufPixels
  lineRunPolicy := .clip
  variant := .mugen
  pcxLinePad := .unpadded
  pcxHdrWrite := defaultHdrWrite
  nInstances := Config.freeInstances + 1
  mpcxBase := 256 * Config.freeBase

end Sys2Proof.Machine
end

