-- ==== Sys2Proof/Machine/State.lean ====
section
/-! DEFINITION. The state of one MPCX core: the host register file (spec/10_state.md R34 to R53), the
Image (R54 to R58), the scratch state (R59 to R61), the port state (spec/20_memory.md R72 to R77), and
the host's side of the interface. Plain data throughout. -/

namespace Sys2Proof.Machine

/-- An RGBA sample (spec/00_scope.md R22). -/
structure Sample where
  r : Byte
  g : Byte
  b : Byte
  a : Byte
  deriving DecidableEq, Repr

/-- One entry of the fallback table (spec/40_header.md R144). -/
structure Rgb where
  r : Byte
  g : Byte
  b : Byte
  deriving DecidableEq, Repr

/-- IMG_REPR (R38). -/
inductive ImgRepr where
  | absent
  | indexed
  | truecolor
  deriving DecidableEq, Repr

/-- The Image (R54). `pal` has 256 entries (R56); `idx` and `pix` have W × H elements, row-major and
top-down (R57, R58). Elements outside the ranges of spec/20_memory.md R78 are not represented (log 8). -/
structure Image where
  repr : ImgRepr
  width : BitVec 17
  height : BitVec 17
  bpl : BitVec 16
  pal : List Sample
  idx : List Byte
  pix : List Sample
  deriving DecidableEq, Repr

/-- The header latch HDR (R60). `fb` has 16 entries. -/
structure Header where
  bpp : Byte
  startX : BitVec 16
  startY : BitVec 16
  endX : BitVec 16
  endY : BitVec 16
  fb : List Rgb
  planes : Byte
  bpl : BitVec 16
  deriving DecidableEq, Repr

/-- The errors a command can end with (spec/60_exceptions.md R405, row by row). -/
inductive CmdError where
  | accessIn
  | accessOut
  | shortHeader
  | shortData
  | bppNot8
  | planesInvalid
  | zeroArea
  | bplLtWidth
  | tooLarge
  | iconOversize
  | unknownOpcode
  | noImage
  | wrongRepr
  | badArg
  deriving DecidableEq, Repr

/-- STATUS (R37). ERR, ERRKIND and ERRDETAIL are views of `error`. -/
structure Status where
  busy : Bool
  done : Bool
  error : Option CmdError
  deriving DecidableEq, Repr

/-- RES2 (R52). -/
structure Res2 where
  bpl : BitVec 16
  planes : Byte
  degenerate : Bool
  explicitPal : Bool
  truncated : Bool
  deriving DecidableEq, Repr

/-- How a port answers one request (spec/20_memory.md R76, R77, R82; spec/93 U9, U10, U21): as the
rules say, with FAIL after moving some of its bytes, or never. An `Out.Write` that is never answered may
have put any first part of its bytes in the port. Log 4. -/
inductive PortDraw where
  | ok
  | fail (moved : Nat)
  | never (moved : Nat)
  deriving DecidableEq, Repr

/-- The port state (R72, R77). `input` is what is left of the input sequence from `cursor` on (log 10);
`output`'s length is outlen; `draws` are the answers to the coming requests, `ok` once they run out. -/
structure Ports where
  input : List Byte
  cursor : Nat
  output : List Byte
  draws : List PortDraw
  deriving DecidableEq, Repr

/-- The consumer of decoded scanlines: emitIndexed (spec/41_rle_decoder.md R191), emitPlanar (R192),
emitRaw (spec/45_commands.md R362). -/
inductive Consumer where
  | indexed
  | planar
  | raw
  deriving DecidableEq, Repr

/-- A running DecodeBody (spec/41_rle_decoder.md R184): its operands, its consumer, the staged Image
(spec/20_memory.md R79), and the run state of R61. -/
structure Engine where
  lineLen : Nat
  lines : Nat
  fill : Byte
  consumer : Consumer
  staged : Image
  y : Nat
  x : Nat
  rem : Nat
  val : Byte
  stopped : Bool
  deriving DecidableEq, Repr

/-- Whether a command is in progress (R33): none; one accepted and not yet begun; one whose body is at a
code boundary; one whose port request is never answered (spec/70_reset_and_hazards.md R452). -/
inductive Phase where
  | idle
  | accepted (op : Byte)
  | body (e : Engine)
  | stalled
  deriving DecidableEq, Repr

/-- How far the core moves when it is its turn: a whole command (spec/45_commands.md R350) or one code
(log 9). -/
inductive Grain where
  | command
  | code
  deriving DecidableEq, Repr

/-- The host's actions (spec/30_encoding.md R114 and spec/70_reset_and_hazards.md R444). -/
inductive HostOp where
  /-- `in [...]`: attach the input sequence of the next command (R72). -/
  | attach (bytes : List Byte)
  /-- The ports' answers to the coming requests (R76, R77). -/
  | portDraws (draws : List PortDraw)
  /-- A register read of `width` bits at a block offset (R71). -/
  | read (width offset : Nat)
  /-- A register write of `width` bits at a block offset (R71). -/
  | write (width offset : Nat) (value : Word)
  /-- A 32-bit read at a bus address (R83). -/
  | busRead (address : Nat)
  /-- A 32-bit write at a bus address (R83). -/
  | busWrite (address : Nat) (value : Word)
  /-- `wait`: read STATUS until DONE = 1 (R114). -/
  | wait
  /-- The host does nothing while the core moves. -/
  | grant (grain : Grain)
  /-- Collect the output sequence (R77, R449). -/
  | collect
  /-- The platform reset input (R440). -/
  | reset
  deriving DecidableEq, Repr

/-- Everything one core and its host interface hold. -/
structure State where
  /-- The configuration, which no step changes (R31; log 1). -/
  cfg : Config
  /-- STATUS (R37). -/
  status : Status
  /-- The committed Image with IMG_REPR, IMG_WIDTH, IMG_HEIGHT, IMG_BPL (R38 to R41, R54). -/
  image : Image
  /-- P_WIDTH (R42). -/
  pWidth : BitVec 17
  /-- P_HEIGHT (R43). -/
  pHeight : BitVec 17
  /-- P_BPL (R44). -/
  pBpl : BitVec 16
  /-- ARG0 (R45). -/
  arg0 : Word
  /-- ARG1 (R46). -/
  arg1 : Word
  /-- ARG2 (R47). -/
  arg2 : Byte
  /-- IN_POS (R48). -/
  inPos : Word
  /-- OUT_LEN (R49). -/
  outLen : Word
  /-- RES0 (R50). -/
  res0 : Word
  /-- RES1 (R51). -/
  res1 : Word
  /-- RES2 (R52). -/
  res2 : Res2
  /-- The ports (R72, R77). -/
  ports : Ports
  /-- The header latch HDR (R60). -/
  hdr : Header
  /-- LINE (R59): the positions the running body addresses. -/
  line : List Byte
  /-- The command in progress and the decoder run state (R33, R61). -/
  phase : Phase
  /-- The host's actions still to come (log 9). -/
  host : List HostOp
  /-- What the host's last register read returned (log 27). -/
  rdata : Word
  /-- The output bytes the host's port holds (log 27). -/
  collected : List Byte
  /-- The place of the next free value (log 3). -/
  freeIx : Draw
  deriving DecidableEq, Repr

/-- What stops the machine with a fault. Safe: no claim passes a fault. -/
inductive Fault where
  /-- A host write to CMD, or a command begun, while STATUS.BUSY = 1
  (spec/70_reset_and_hazards.md R445). Raised by the host's register write and by a command's entry
  while a body is running. Safe. -/
  | cmdWhileBusy
  /-- A host write to P_WIDTH, P_HEIGHT, P_BPL or ARG0 to ARG2 while STATUS.BUSY = 1 (R446). Raised by
  the host's register write. Safe. -/
  | operandWhileBusy
  deriving DecidableEq, Repr

/-- What the model has no step for. Safe: no claim passes a refusal. -/
inductive Refusal where
  /-- An instruction without a meaning yet. Raised by `exec` alone. Safe. -/
  | notModelled (mnemonic : String)
  /-- A host access of another width than 32 bits (spec/20_memory.md R71). Raised by the host's register
  accesses. Safe. -/
  | accessWidth
  /-- A host access at an offset that is no multiple of 4 (R71). Raised as above. Safe. -/
  | accessUnaligned
  /-- A host access outside the block's 256 bytes (R71, R83). Raised as above. Safe. -/
  | accessOutside
  /-- The input sequence changed while a command runs (spec/70_reset_and_hazards.md R447). Raised by the
  host's attach. Safe. -/
  | inputWhileBusy
  /-- An input sequence of 2^32 bytes or more (R447). Raised by the host's attach. Safe. -/
  | inputTooLong
  /-- A buffer access outside its range (spec/20_memory.md R78). Raised by the buffer operations and by
  commands that read an Image whose buffers do not have the sizes of R54. Safe. -/
  | bufferRange
  /-- A code byte executed while no body is running (spec/41_rle_decoder.md R180, R183). Raised by LIT
  and RUN. Safe. -/
  | noBodyRunning
  deriving DecidableEq, Repr

/-- A sample of four zero lanes. -/
def Sample.zero : Sample := ⟨0#8, 0#8, 0#8, 0#8⟩

/-- The header latch with every field zero: the model's reset value (log 6). -/
def Header.zero : Header :=
  { bpp := 0#8, startX := 0#16, startY := 0#16, endX := 0#16, endY := 0#16,
    fb := List.replicate 16 ⟨0#8, 0#8, 0#8⟩, planes := 0#8, bpl := 0#16 }

/-- No Image (R54, R441): REPR = NONE and W = H = BPL = 0; the buffers' contents are the model's choice
(log 5). -/
def Image.none : Image :=
  { repr := .absent, width := 0#17, height := 0#17, bpl := 0#16,
    pal := List.replicate 256 Sample.zero, idx := [], pix := [] }

/-- The state right after reset (spec/70_reset_and_hazards.md R441): every register at the value of
spec/10_state.md R34, no Image, no command in progress, nothing attached and nothing pending. -/
def State.reset : State where
  cfg := defaultConfig
  status := { busy := false, done := false, error := none }
  image := Image.none
  pWidth := 0#17
  pHeight := 0#17
  pBpl := 0#16
  arg0 := 0#32
  arg1 := 0#32
  arg2 := 0#8
  inPos := 0#32
  outLen := 0#32
  res0 := 0#32
  res1 := 0#32
  res2 := { bpl := 0#16, planes := 0#8, degenerate := false, explicitPal := false, truncated := false }
  ports := { input := [], cursor := 0, output := [], draws := [] }
  hdr := Header.zero
  line := []
  phase := .idle
  host := []
  rdata := 0#32
  collected := []
  freeIx := { core := 0, count := 0 }

end Sys2Proof.Machine
end

