-- ==== Sys2Proof/Machine/Flags.lean ====
section
/-! DEFINITION. The status words: ERRKIND and ERRDETAIL codes (spec/60_exceptions.md R405), the STATUS
word (spec/10_state.md R37), IMG_REPR's code (R38) and the RES2 word (R52). The core has no other flags
(R62). -/

namespace Sys2Proof.Machine

/-- ERRKIND (R405, bits 6:4 of STATUS). -/
def CmdError.kind : CmdError → BitVec 3
  | .accessIn => 1#3
  | .accessOut => 1#3
  | .shortHeader => 2#3
  | .shortData => 2#3
  | .bppNot8 => 3#3
  | .planesInvalid => 3#3
  | .zeroArea => 3#3
  | .bplLtWidth => 3#3
  | .tooLarge => 3#3
  | .iconOversize => 3#3
  | .unknownOpcode => 4#3
  | .noImage => 4#3
  | .wrongRepr => 4#3
  | .badArg => 4#3

/-- ERRDETAIL (R405, bits 15:8 of STATUS). -/
def CmdError.detail : CmdError → Byte
  | .accessIn => 1#8
  | .accessOut => 2#8
  | .shortHeader => 1#8
  | .shortData => 2#8
  | .bppNot8 => 1#8
  | .planesInvalid => 2#8
  | .zeroArea => 3#8
  | .bplLtWidth => 4#8
  | .tooLarge => 5#8
  | .iconOversize => 6#8
  | .unknownOpcode => 1#8
  | .noImage => 2#8
  | .wrongRepr => 3#8
  | .badArg => 4#8

/-- One bit of a word. -/
def bit (b : Bool) : BitVec 1 := if b then 1#1 else 0#1

/-- ERR (R37, bit 2). -/
def Status.err (st : Status) : Bool := st.error.isSome

/-- ERRKIND, 0 when ERR = 0 (R37). -/
def Status.errKind (st : Status) : BitVec 3 :=
  match st.error with
  | some e => e.kind
  | none => 0#3

/-- ERRDETAIL, 0 when ERR = 0 (R37). -/
def Status.errDetail (st : Status) : Byte :=
  match st.error with
  | some e => e.detail
  | none => 0#8

/-- The STATUS word (R37): BUSY, DONE, ERR, bit 3 zero, ERRKIND, bit 7 zero, ERRDETAIL, zeros. -/
def Status.toWord (st : Status) : Word :=
  0#16 ++ st.errDetail ++ 0#1 ++ st.errKind ++ 0#1 ++ bit st.err ++ bit st.done ++ bit st.busy

/-- STATUS in the course of a command (spec/45_commands.md R351). -/
def Status.running : Status := { busy := true, done := false, error := none }

/-- STATUS after success (R352). -/
def Status.success : Status := { busy := false, done := true, error := none }

/-- STATUS after an error (spec/60_exceptions.md R410). -/
def Status.failure (e : CmdError) : Status := { busy := false, done := true, error := some e }

/-- IMG_REPR (R38). -/
def ImgRepr.code : ImgRepr → BitVec 2
  | .absent => 0#2
  | .indexed => 1#2
  | .truecolor => 2#2

/-- The RES2 word (R52). -/
def Res2.toWord (r : Res2) : Word :=
  0#5 ++ bit r.truncated ++ bit r.explicitPal ++ bit r.degenerate ++ r.planes ++ r.bpl

end Sys2Proof.Machine
end

