-- ==== Sys2Proof/Machine/Operands.lean ====
section
/-! DEFINITION. Where operands come from (spec/30_encoding.md R108): the register map by offset
(spec/10_state.md R34), the commands' operand registers, the fields of the structural header
(spec/40_header.md R143), and the geometry of the Image. -/

namespace Sys2Proof.Machine

/-- The registers of the map (R34); `reserved` is every offset from 0x48 to 0xFC (R53). -/
inductive Reg where
  | id
  | cmd
  | status
  | imgRepr
  | imgWidth
  | imgHeight
  | imgBpl
  | pWidth
  | pHeight
  | pBpl
  | arg0
  | arg1
  | arg2
  | inPos
  | outLen
  | res0
  | res1
  | res2
  | reserved
  deriving DecidableEq, Repr

/-- The rows of the register map (R34). -/
def regMap : List (Nat × Reg) :=
  [ (0x00, .id), (0x04, .cmd), (0x08, .status), (0x0C, .imgRepr), (0x10, .imgWidth),
    (0x14, .imgHeight), (0x18, .imgBpl), (0x1C, .pWidth), (0x20, .pHeight), (0x24, .pBpl),
    (0x28, .arg0), (0x2C, .arg1), (0x30, .arg2), (0x34, .inPos), (0x38, .outLen),
    (0x3C, .res0), (0x40, .res1), (0x44, .res2) ]

/-- The register at an aligned offset inside the block. -/
def regAt (offset : Nat) : Reg := (regMap.lookup offset).getD .reserved

/-- The offset of a register; a reserved one stands for the first reserved offset. -/
def Reg.offset : Reg → Nat
  | .id => 0x00
  | .cmd => 0x04
  | .status => 0x08
  | .imgRepr => 0x0C
  | .imgWidth => 0x10
  | .imgHeight => 0x14
  | .imgBpl => 0x18
  | .pWidth => 0x1C
  | .pHeight => 0x20
  | .pBpl => 0x24
  | .arg0 => 0x28
  | .arg1 => 0x2C
  | .arg2 => 0x30
  | .inPos => 0x34
  | .outLen => 0x38
  | .res0 => 0x3C
  | .res1 => 0x40
  | .res2 => 0x44
  | .reserved => 0x48

/-- The constant of ID (R35). -/
def idConstant : Word := 0x4D504358#32

/-- What a register reads as when it may be read (R35 to R53): unlisted bits 0, write-only and reserved
registers 0. -/
def readReg (s : State) : Reg → Word
  | .id => idConstant
  | .cmd => 0#32
  | .status => s.status.toWord
  | .imgRepr => s.image.repr.code.setWidth 32
  | .imgWidth => s.image.width.setWidth 32
  | .imgHeight => s.image.height.setWidth 32
  | .imgBpl => s.image.bpl.setWidth 32
  | .pWidth => s.pWidth.setWidth 32
  | .pHeight => s.pHeight.setWidth 32
  | .pBpl => s.pBpl.setWidth 32
  | .arg0 => s.arg0
  | .arg1 => s.arg1
  | .arg2 => s.arg2.setWidth 32
  | .inPos => s.inPos
  | .outLen => s.outLen
  | .res0 => s.res0
  | .res1 => s.res1
  | .res2 => s.res2.toWord
  | .reserved => 0#32

/-- The operand registers, which the host may not write while BUSY (spec/70_reset_and_hazards.md
R446). -/
def Reg.isOperand : Reg → Bool
  | .pWidth => true
  | .pHeight => true
  | .pBpl => true
  | .arg0 => true
  | .arg1 => true
  | .arg2 => true
  | _ => false

/-- The registers whose value may be relied on while BUSY: ID and STATUS (R448), and those that read 0
in every state (R36, R53). Log 12. -/
def Reg.steadyWhileBusy : Reg → Bool
  | .id => true
  | .status => true
  | .cmd => true
  | .reserved => true
  | _ => false

/-- A write to an operand register drops the bits it lacks (R42 to R47); a read-only or reserved
register ignores the write (R34, R53). -/
def writeReg (s : State) (r : Reg) (v : Word) : State :=
  match r with
  | .pWidth => { s with pWidth := v.setWidth 17 }
  | .pHeight => { s with pHeight := v.setWidth 17 }
  | .pBpl => { s with pBpl := v.setWidth 16 }
  | .arg0 => { s with arg0 := v }
  | .arg1 => { s with arg1 := v }
  | .arg2 => { s with arg2 := v.setWidth 8 }
  | _ => s

/-- The offset a bus address reaches, where it lies in this block (spec/20_memory.md R83). -/
def busOffset (cfg : Config) (address : Nat) : Option Nat :=
  if cfg.mpcxBase ≤ address ∧ address < cfg.mpcxBase + 256 then some (address - cfg.mpcxBase) else none

/-- W of an Image (R54). -/
def Image.w (img : Image) : Nat := img.width.toNat

/-- H of an Image. -/
def Image.h (img : Image) : Nat := img.height.toNat

/-- BPL of an Image. -/
def Image.bplNat (img : Image) : Nat := img.bpl.toNat

/-- W × H. -/
def Image.area (img : Image) : Nat := img.w * img.h

/-- The plane count the writers use (spec/40_header.md R154, spec/44_writers.md R294). -/
def Image.planeCount (img : Image) : Nat :=
  match img.repr with
  | .indexed => 1
  | _ => 3

/-- The entries of a table of 3-byte triples. -/
def rgbTriples (bs : List Byte) (n : Nat) : List Rgb :=
  (List.range n).map fun i => ⟨byteAt bs (3 * i), byteAt bs (3 * i + 1), byteAt bs (3 * i + 2)⟩

/-- Field extraction from the 68 bytes of the minimal header (spec/40_header.md R143). -/
def parseHeader (b : List Byte) : Header where
  bpp := byteAt b 3
  startX := le16 (byteAt b 4) (byteAt b 5)
  startY := le16 (byteAt b 6) (byteAt b 7)
  endX := le16 (byteAt b 8) (byteAt b 9)
  endY := le16 (byteAt b 10) (byteAt b 11)
  fb := rgbTriples (b.drop 16) 16
  planes := byteAt b 65
  bpl := le16 (byteAt b 66) (byteAt b 67)

/-- W of a header, in the integers (spec/40_header.md R147). -/
def Header.width (h : Header) : Int := (h.endX.toNat : Int) - (h.startX.toNat : Int) + 1

/-- H of a header, in the integers (R147). -/
def Header.height (h : Header) : Int := (h.endY.toNat : Int) - (h.startY.toNat : Int) + 1

end Sys2Proof.Machine
end

