-- ==== Sys2Proof/Machine/Ops.lean ====
section
/-! DEFINITION. The shared operations: buffer accesses (spec/20_memory.md R78), the ports (R72 to R77),
a command's beginning (spec/45_commands.md R351), its end with success (R352), and its end with an error
(spec/60_exceptions.md R410), which is this machine's one exception entry. -/

namespace Sys2Proof.Machine

open Host

/-! ### Internal buffers -/

/-- `MemRead(buf, i, n)` inside the range `bound` (R78); none outside it. -/
def memRead {α : Type} (bound : Nat) (buf : List α) (i n : Nat) : Option (List α) :=
  if i + n ≤ bound ∧ i + n ≤ buf.length then some ((buf.drop i).take n) else none

/-- `MemWrite(buf, i, n, v)` inside the range `bound` (R78); none outside it. A buffer under
construction grows as its next elements are written (log 8). -/
def memWrite {α : Type} (bound : Nat) (buf : List α) (i : Nat) (vs : List α) : Option (List α) :=
  if i + vs.length ≤ bound ∧ i ≤ buf.length then
    some (buf.take i ++ vs ++ buf.drop (i + vs.length))
  else none

/-- The size of LINE (R59, R78). -/
def lineBound : Nat := 3 * 65535

/-! ### The ports -/

/-- What a piece of a command comes to: a result, an error, a request never answered, or a refusal. -/
inductive Reply (α : Type) where
  | ok (a : α) (p : Ports)
  | error (e : CmdError) (p : Ports)
  | stall (p : Ports)
  | refuse (r : Refusal)
  deriving Repr

/-- One piece after another; the first that does not succeed ends the command
(spec/60_exceptions.md R408). -/
def Reply.andThen {α β : Type} (r : Reply α) (k : α → Ports → Reply β) : Reply β :=
  match r with
  | .ok a p => k a p
  | .error e p => .error e p
  | .stall p => .stall p
  | .refuse why => .refuse why

/-- A buffer access as a piece of a command: out of range it is refused (R78). -/
def inRange {α : Type} (access : Option α) (p : Ports) : Reply α :=
  match access with
  | some a => .ok a p
  | none => .refuse .bufferRange

/-- A check of a command: where it fails, `raise Error`. -/
def require (c : Bool) (e : CmdError) (p : Ports) : Reply Unit :=
  if c then .ok () p else .error e p

/-- The bound on a height of spec/00_scope.md R16 (of a validated header) and spec/10_state.md R40 (of the
committed Image): 1 to 65535. These rules name no error for a taller one; TOO_LARGE is the model's choice
(log 14). -/
def requireHeight (h : Nat) (p : Ports) : Reply Unit := require (decide (h ≤ 65535)) .tooLarge p

/-- One request's answer: as its rule says, or a failure that moved some bytes, or never. -/
def answer {α : Type} (p : Ports) (served : Ports → Reply α) (failed : Nat → Ports → Reply α) : Reply α :=
  match p.draws with
  | [] => served p
  | .ok :: ds => served { p with draws := ds }
  | .fail moved :: ds => failed moved { p with draws := ds }
  | .never _ :: ds => .stall { p with draws := ds }

/-- The cursor moves forward by `n` bytes. -/
def advance (n : Nat) (p : Ports) : Ports :=
  { p with input := p.input.drop n, cursor := p.cursor + n }

/-- A failed input request: AccessFailure IN_PORT after any count of bytes up to its size
(R76, R82; log 22). -/
def inFailed {α : Type} (n moved : Nat) (p : Ports) : Reply α :=
  .error .accessIn (advance (min moved n) p)

/-- `In.ReadExact(n)` (R73); none is SHORT, which consumes what remained. -/
def readExact (n : Nat) (p : Ports) : Reply (Option (List Byte)) :=
  answer p
    (fun p =>
      if p.input.length < n then .ok none (advance p.input.length p)
      else .ok (some (p.input.take n)) (advance n p))
    (inFailed n)

/-- `In.ReadByte()` (R74); none is EOS. -/
def readByte (p : Ports) : Reply (Option Byte) :=
  answer p
    (fun p =>
      match p.input with
      | [] => .ok none p
      | b :: rest => .ok (some b) { p with input := rest, cursor := p.cursor + 1 })
    (inFailed 1)

/-- `byteOf` (R21, R74): EOS stores as 0xFF. -/
def byteOf (r : Option Byte) : Byte := r.getD 0xFF#8

/-- `n` calls of `In.ReadByte()`, each stored through `byteOf`. -/
def readBytesOr : Nat → Ports → Reply (List Byte)
  | 0, p => .ok [] p
  | n + 1, p =>
    (readByte p).andThen fun c p => (readBytesOr n p).andThen fun cs p => .ok (byteOf c :: cs) p

/-- `In.Skip(n)` (R75): whether the end of the stream was reached. -/
def skip (n : Nat) (p : Ports) : Reply Bool :=
  answer p
    (fun p =>
      if p.input.length < n then .ok true (advance p.input.length p) else .ok false (advance n p))
    (inFailed n)

/-- How a row of `Out.Write` requests ends. -/
inductive SendEnd where
  | sent
  | failed
  | silent
  deriving DecidableEq, Repr

/-- The bytes that a row of `Out.Write` requests appends (R77): each request's bytes in order; a failing
one appends some first part of its bytes (R82) and ends the row. One that is never answered ends the row
too, after any first part of its bytes, which is the model's choice (log 4). -/
def sendParts : List (List Byte) → List PortDraw → List Byte × SendEnd × List PortDraw
  | [], ds => ([], .sent, ds)
  | part :: parts, [] => (part ++ (sendParts parts []).1, (sendParts parts []).2)
  | part :: parts, .ok :: ds => (part ++ (sendParts parts ds).1, (sendParts parts ds).2)
  | part :: _, .fail moved :: ds => (part.take moved, .failed, ds)
  | part :: _, .never moved :: ds => (part.take moved, .silent, ds)

/-- A row of `Out.Write` requests, one per part (R77). -/
def writeAll (parts : List (List Byte)) (p : Ports) : Reply Unit :=
  let r := sendParts parts p.draws
  let p' : Ports := { p with output := p.output ++ r.1, draws := r.2.2 }
  match r.2.1 with
  | .sent => .ok () p'
  | .failed => .error .accessOut p'
  | .silent => .stall p'

/-- One `Out.Write` request (R77). -/
def write (bytes : List Byte) (p : Ports) : Reply Unit := writeAll [bytes] p

/-! ### Unspecified contents -/

/-- A sample of unspecified contents: position `j` of draw `ix`. -/
def unspecSample (ix : Draw) (j : Nat) : Sample :=
  ⟨Config.unspecByte ix (4 * j), Config.unspecByte ix (4 * j + 1), Config.unspecByte ix (4 * j + 2),
    Config.unspecByte ix (4 * j + 3)⟩

/-- PAL with unspecified contents (R55, R361, R369). Log 7. -/
def unspecPal (ix : Draw) : List Sample := (List.range 256).map (unspecSample ix)

/-- The header latch between commands: unspecified (R60). Log 6. -/
def unspecHeader (ix : Draw) : Header :=
  parseHeader ((List.range 68).map fun j => Config.unspecByte ix (1024 + j))

/-- IDX with unspecified contents (R55, R369). Log 7. -/
def unspecIdx (ix : Draw) (n : Nat) : List Byte := (List.range n).map fun j => Config.unspecByte ix (2048 + j)

/-! ### A command's beginning and end -/

/-- The ports at the start of a command (R72, R77, R351). -/
def startPorts (p : Ports) : Ports := { p with cursor := 0, output := [] }

/-- The prologue's effect on STATUS and the ports (R351). -/
def prologue (s : State) : State := { s with status := Status.running, ports := startPorts s.ports }

/-- An accepted CMD write: the prologue, and the opcode waits for the core (R350). -/
def acceptCommand (op : Byte) (s : State) : State := { prologue s with phase := .accepted op }

/-- What every command does at its end, with success or error (R48, R49, R86, R90): STATUS, IN_POS and
OUT_LEN are written, the scratch state is dead, and the input sequence does not carry over (R72). -/
def endCommand (st : Status) (p : Ports) (s : State) : State :=
  { s with
    status := st
    inPos := BitVec.ofNat 32 p.cursor
    outLen := BitVec.ofNat 32 p.output.length
    ports := { p with input := [] }
    hdr := unspecHeader s.freeIx
    line := []
    phase := .idle
    freeIx := s.freeIx.next }

/-- The epilogue on success (R352). -/
def epilogue (p : Ports) (s : State) : State := endCommand Status.success p s

/-- Error entry: `raise Error(kind, detail)` (spec/60_exceptions.md R410). Nothing else changes. There is
no return from an error: the next CMD write clears it (R412). -/
def raiseError (e : CmdError) (p : Ports) (s : State) : State := endCommand (Status.failure e) p s

/-- A request that is never answered leaves the command BUSY (spec/70_reset_and_hazards.md R452). Its
run state is dropped, HDR stays as last latched, and LINE as the last code left it, without the scanlines
begun since: the model's choice (log 6). -/
def stallCommand (p : Ports) (s : State) : State := { s with ports := p, phase := .stalled }

/-- A command's outcome from what its body came to. -/
def conclude {α : Type} (s : State) (r : Reply α) (effect : α → State → State) : Outcome State Fault Refusal :=
  match r with
  | .ok a p => .next (epilogue p (effect a s))
  | .error e p => .next (raiseError e p s)
  | .stall p => .next (stallCommand p s)
  | .refuse why => .refused why

/-- A command without an effect on the registers or the Image. -/
def noEffect {α : Type} (_ : α) (s : State) : State := s

/-- Commit (spec/45_commands.md R369): the staged Image replaces the committed one as one step; under
TRUECOLOR the contents of PAL and IDX become unspecified. -/
def commitImage (img : Image) (s : State) : State :=
  match img.repr with
  | .truecolor => { s with image := { img with pal := unspecPal s.freeIx, idx := unspecIdx s.freeIx img.area } }
  | _ => { s with image := img }

/-- RES0 to RES2 (spec/40_header.md R153). -/
def setResults (w h : Nat) (r : Res2) (s : State) : State :=
  { s with res0 := BitVec.ofNat 32 w, res1 := BitVec.ofNat 32 h, res2 := r }

/-- Running a command: the prologue, then its body. While another command's body runs, or waits for a
port that never answers, beginning a command is the hazard of spec/70_reset_and_hazards.md R445. -/
def runCommand (s : State) (body : State → Outcome State Fault Refusal) : Outcome State Fault Refusal :=
  match s.phase with
  | .body _ => .fault .cmdWhileBusy
  | .stalled => .fault .cmdWhileBusy
  | .accepted _ => body (prologue s)
  | .idle => body (prologue s)

/-- A command of an unassigned opcode (R351, spec/30_encoding.md R107). -/
def execUnknownOpcode (s : State) : Outcome State Fault Refusal :=
  runCommand s fun s => .next (raiseError .unknownOpcode s.ports s)

/-- Every buffer of the Image has the size of R78 for its geometry. -/
def Image.sized (img : Image) : Bool :=
  img.pal.length == 256 && img.idx.length == img.area && img.pix.length == img.area

/-- The precondition of a command that reads the Image (R352): NO_IMAGE when there is none. The buffers
it reads are inside the ranges of R78. -/
def requireImage (img : Image) (p : Ports) : Reply Unit :=
  (require (img.repr != .absent) .noImage p).andThen fun _ p =>
    if img.sized then .ok () p else .refuse .bufferRange

/-- The precondition of READ_INDEX and READ_PALETTE (R352): also WRONG_REPR under TRUECOLOR. -/
def requireIndexed (img : Image) (p : Ports) : Reply Unit :=
  (require (img.repr != .absent) .noImage p).andThen fun _ p =>
    (require (img.repr != .truecolor) .wrongRepr p).andThen fun _ p =>
      if img.sized then .ok () p else .refuse .bufferRange

end Sys2Proof.Machine
end

