-- ==== Sys2Proof/Machine/Palette.lean ====
section
/-! DEFINITION. The Palette Resolver (spec/42_palette_pixels.md R220 to R226) and depalettization
(R227, R228). -/

namespace Sys2Proof.Machine

/-- Opaque black, the default of entries 16 to 255 (R224). -/
def black : Sample := ⟨0#8, 0#8, 0#8, 255#8⟩

/-- The final alpha forcing (R225). -/
def forceAlpha : List Sample → List Sample
  | [] => []
  | p :: rest => { p with a := 0#8 } :: rest.map fun q => { q with a := 255#8 }

/-- A palette from the 768 bytes of 256 R, G, B triples (R223, spec/45_commands.md R356). -/
def paletteOfBytes (bs : List Byte) : List Sample :=
  forceAlpha ((rgbTriples bs 256).map fun c => ⟨c.r, c.g, c.b, 0#8⟩)

/-- `FallbackPalette(FB)` (R224), with R225 applied. -/
def fallbackPalette (fb : List Rgb) : List Sample :=
  forceAlpha ((List.range 256).map fun i =>
    match fb[i]? with
    | some c => if i < 16 then ⟨c.r, c.g, c.b, 255#8⟩ else black
    | none => black)

/-- `ScanForMarker()` (R221, R222): whether the marker was found. The fuel is one more than the bytes
left. -/
def scanLoop : Nat → Ports → Reply Bool
  | 0, p => .ok false p
  | n + 1, p =>
    (readByte p).andThen fun c p =>
      match c with
      | none => .ok false p
      | some b =>
        if b = 0x00#8 then scanLoop n p
        else if b = 0x0C#8 then .ok true p
        else .ok false p

/-- `ScanForMarker()` (R221). -/
def scanForMarker (p : Ports) : Reply Bool := scanLoop (p.input.length + 1) p

/-- The Palette Resolver (R221 to R225): the palette, and whether it is EXPLICIT. -/
def resolvePalette (fb : List Rgb) (p : Ports) : Reply (List Sample × Bool) :=
  (scanForMarker p).andThen fun found p =>
    if found then (readBytesOr 768 p).andThen fun bs p => .ok (paletteOfBytes bs, true) p
    else .ok (fallbackPalette fb, false) p

/-- `PAL[i]`; the palette has 256 entries, so every index has one (R56, R228). -/
def lookup (pal : List Sample) (i : Byte) : Sample := pal.getD i.toNat Sample.zero

/-- `PIX[i] <- PAL[IDX[i]]` (R227). -/
def depalettize (pal : List Sample) (idx : List Byte) : List Sample := idx.map (lookup pal)

end Sys2Proof.Machine
end

