-- ==== Sys2Proof/Machine/Code.lean ====
section
/-! DEFINITION. The RLE Decoder (spec/41_rle_decoder.md): the code forms LIT (R180) and RUN (R181), the
scanline engine around them (R182 to R195), and its consumers (R191, R192, spec/45_commands.md R362).
The engine stands in `Phase.body` between two codes, so a body can run code by code (log 9). -/

namespace Sys2Proof.Machine

open Host

/-- "The engine then writes `LINE[x] <- val; x <- x + 1`" while copies are left and `x < S`
(R180, R181, R184). -/
def writeCopies (e : Engine) (line : List Byte) : Option (Engine × List Byte) :=
  let k := min e.rem (e.lineLen - e.x)
  (memWrite lineBound line e.x (List.replicate k e.val)).map fun line' =>
    ({ e with x := e.x + k, rem := e.rem - k }, line')

/-- A code form inside a running body: `rem <- n; val <- v`, then the engine's writes. -/
def execCode (n : Nat) (v : Byte) (s : State) : Outcome State Fault Refusal :=
  match s.phase with
  | .body e =>
    match writeCopies { e with rem := n, val := v } s.line with
    | some (e', line') => .next { s with phase := .body e', line := line' }
    | none => .refused .bufferRange
  | _ => .refused .noBodyRunning

/-- LIT (R180): `rem <- 1; val <- b`. -/
def execLit (v : Byte) (s : State) : Outcome State Fault Refusal := execCode 1 v s

/-- RUN (R181): `rem <- n; val <- v`; n = 0 writes nothing (R187). -/
def execRun (n : BitVec 6) (v : Byte) (s : State) : Outcome State Fault Refusal := execCode n.toNat v s

/-- The start of a scanline (R184): every position holds FILL; under `clip` what is left of a run is
discarded, under `carry` it goes on (R188). -/
def startLine (cfg : Config) (e : Engine) : Option (Engine × List Byte) :=
  let fresh := List.replicate e.lineLen e.fill
  let e' := { e with x := 0, rem := match cfg.lineRunPolicy with | .clip => 0 | .carry => e.rem }
  if e.stopped then some (e', fresh) else writeCopies e' fresh

/-- The pixels of a planar scanline (spec/42_palette_pixels.md R229). -/
def planarRow (w bpl : Nat) (line : List Byte) : List Sample :=
  (List.range w).map fun x =>
    ⟨byteAt line x, byteAt line (bpl + x), byteAt line (2 * bpl + x), 255#8⟩

/-- `emit(y)`: emitIndexed (R191), emitPlanar (R192, spec/42 R229) or emitRaw (spec/45 R362). Columns at
or past W are not copied (R190). -/
def emitLine (e : Engine) (line : List Byte) (p : Ports) : Reply Engine :=
  let img := e.staged
  match e.consumer with
  | .indexed =>
    (inRange (memRead lineBound line 0 img.w) p).andThen fun row p =>
    (inRange (memWrite img.area img.idx (e.y * img.w) row) p).andThen fun idx p =>
      .ok { e with staged := { img with idx := idx } } p
  | .planar =>
    (inRange (memRead lineBound line 0 (2 * img.bplNat + img.w)) p).andThen fun segs p =>
    (inRange (memWrite img.area img.pix (e.y * img.w) (planarRow img.w img.bplNat segs)) p).andThen fun pix p =>
      .ok { e with staged := { img with pix := pix } } p
  | .raw =>
    (inRange (memRead lineBound line 0 e.lineLen) p).andThen fun row p =>
    (write row p).andThen fun _ p => .ok e p

/-- The engine up to its next code fetch, or past its last scanline: `n` scanlines are left, the present
one among them. A scanline that is full, or that a stop cut, is emitted and the next one begins (R184). -/
def settle (cfg : Config) : Nat → Engine → List Byte → Ports → Reply (Engine × List Byte)
  | 0, e, line, p => .ok (e, line) p
  | n + 1, e, line, p =>
    if e.x < e.lineLen ∧ e.stopped = false then .ok (e, line) p
    else
      (emitLine e line p).andThen fun e p =>
        let e := { e with y := e.y + 1 }
        if n = 0 then .ok (e, line) p
        else (inRange (startLine cfg e) p).andThen fun r p => settle cfg n r.1 r.2 p

/-- DecodeBody's entry (R184): the first scanline begins; with no scanline nothing is read. -/
def enterBody (cfg : Config) (e : Engine) (p : Ports) : Reply (Engine × List Byte) :=
  if e.lines = 0 then .ok (e, []) p
  else (inRange (startLine cfg e) p).andThen fun r p => settle cfg e.lines r.1 r.2 p

/-- RES2 of a DECODE whose body ran (spec/10_state.md R52). -/
def bodyResults (s : State) (e : Engine) (isExplicit : Bool) : Res2 :=
  { bpl := s.hdr.bpl, planes := s.hdr.planes, degenerate := false, explicitPal := isExplicit,
    truncated := e.stopped }

/-- What a command does once its body has ended: the palette, the commit and the results of DECODE
(spec/45_commands.md R354); RLE_DECODE is complete (R362). -/
def finishBody (s : State) (e : Engine) (p : Ports) : Outcome State Fault Refusal :=
  match e.consumer with
  | .raw => conclude s (.ok () p) noEffect
  | .planar =>
    conclude s (.ok () p) fun _ s =>
      setResults e.staged.w e.staged.h (bodyResults s e false)
        (commitImage { e.staged with repr := .truecolor } s)
  | .indexed =>
    conclude s (resolvePalette s.hdr.fb p) fun r s =>
      setResults e.staged.w e.staged.h (bodyResults s e r.2)
        (commitImage
          { e.staged with repr := .indexed, pal := r.1, pix := depalettize r.1 e.staged.idx } s)

/-- The state after a piece of the engine: at the next code boundary, or past the body. Where an output
request of the piece is never answered, LINE stays as it stood before the piece, also when the request is
for a later scanline of it: the model's choice (log 6). -/
def continueBody (s : State) (r : Reply (Engine × List Byte)) : Outcome State Fault Refusal :=
  match r with
  | .ok (e, line) p =>
    if e.y < e.lines then .next { s with phase := .body e, line := line, ports := p }
    else finishBody s e p
  | .error er p => .next (raiseError er p s)
  | .stall p => .next (stallCommand p s)
  | .refuse why => .refused why

/-- The code fetch (R183): one byte, and the value byte after a marker (R181); none where the stream
ended (R185, R186). -/
def fetchCode (p : Ports) : Reply (Option Instr) :=
  (readByte p).andThen fun c p =>
    match c with
    | none => .ok none p
    | some b =>
      if isMarker b then
        (readByte p).andThen fun d p =>
          match d with
          | none => .ok none p
          | some v => .ok (decode (.code [b, v])).toOption p
      else .ok (decode (.code [b])).toOption p

/-- After a code was executed: on to the next boundary, or past the body. -/
def afterCode (s : State) : Outcome State Fault Refusal :=
  match s.phase with
  | .body e => continueBody s (settle s.cfg (e.lines - e.y) e s.line s.ports)
  | _ => .next s

/-- The end of the stream: the engine stops, and the scanlines left are emitted with FILL (R185). -/
def stopBody (e : Engine) (s : State) : Outcome State Fault Refusal :=
  continueBody s (settle s.cfg (e.lines - e.y) { e with stopped := true } s.line s.ports)

/-- One code of a running body: fetch, execute by `run`, and on to the next boundary. At the end of the
stream the engine stops (R185). -/
def codeStep (run : Instr → State → Outcome State Fault Refusal) (s : State) : Outcome State Fault Refusal :=
  match s.phase with
  | .body e =>
    match fetchCode s.ports with
    | .ok none p => stopBody e { s with ports := p }
    | .ok (some i) p =>
      match run i { s with ports := p } with
      | .next t => afterCode t
      | .fault why => .fault why
      | .refused why => .refused why
    | .error er p => .next (raiseError er p s)
    | .stall p => .next (stallCommand p s)
    | .refuse why => .refused why
  | _ => .next s

/-- The meaning of a code form inside the engine. -/
def runCode (i : Instr) (s : State) : Outcome State Fault Refusal :=
  match i with
  | .lit v => execLit v s
  | .run n v => execRun n v s
  | _ => .refused .noBodyRunning

/-- The body's codes one after another until the command is over. -/
def bodyLoop : Nat → State → Outcome State Fault Refusal
  | 0, s => .next s
  | n + 1, s =>
    match s.phase with
    | .body _ =>
      match codeStep runCode s with
      | .next t => bodyLoop n t
      | .fault why => .fault why
      | .refused why => .refused why
    | _ => .next s

/-- A body to its end. Every code takes a byte of the input, so one more pass than there are bytes is
enough (R195). -/
def finishCommand (s : State) : Outcome State Fault Refusal := bodyLoop (s.ports.input.length + 1) s

/-- A command with a body: its beginning, then its codes to the end. -/
def wholeCommand (o : Outcome State Fault Refusal) : Outcome State Fault Refusal :=
  match o with
  | .next s => finishCommand s
  | .fault why => .fault why
  | .refused why => .refused why

end Sys2Proof.Machine
end

