-- ==== Sys2Proof/Machine/Header.lean ====
section
/-! DEFINITION. The Header Reader (spec/40_header.md R146 to R150) and the header writer (R154 to R157). -/

namespace Sys2Proof.Machine

/-- What the Header Reader passes on (R153): the latch and the validated W and H. -/
structure HeaderInfo where
  hdr : Header
  w : Nat
  h : Nat
  deriving DecidableEq, Repr

/-- The checks of R148 and R149, in the order of R150, and then the bound that spec/00_scope.md R16 gives a
validated height (log 14). -/
def checkHeader (cfg : Config) (hdr : Header) (p : Ports) : Reply HeaderInfo :=
  (require (hdr.bpp == 8#8) .bppNot8 p).andThen fun _ p =>
  (require (hdr.planes == 1#8 || hdr.planes == 3#8) .planesInvalid p).andThen fun _ p =>
  (require (decide (1 ≤ hdr.width ∧ 1 ≤ hdr.height)) .zeroArea p).andThen fun _ p =>
  (require (decide (hdr.width ≤ (hdr.bpl.toNat : Int))) .bplLtWidth p).andThen fun _ p =>
  (require (decide (hdr.width * hdr.height ≤ (cfg.bufPixels : Int))) .tooLarge p).andThen fun _ p =>
  (requireHeight hdr.height.toNat p).andThen fun _ p =>
    .ok { hdr := hdr, w := hdr.width.toNat, h := hdr.height.toNat } p

/-- Steps 1 to 4 of the Header Reader (R146 to R149). -/
def headerRead (cfg : Config) (p : Ports) : Reply HeaderInfo :=
  (readExact 68 p).andThen fun r p =>
    match r with
    | none => .error .shortHeader p
    | some b => checkHeader cfg (parseHeader b) p

/-- `HeaderBytes(img)` (R157): the 128 bytes of the round-trip file's header. -/
def headerBytes (cfg : Config) (img : Image) : List Byte :=
  let P := cfg.pcxHdrWrite
  [P.sig, P.ver, P.enc, 8#8] ++ toLE16 0 ++ toLE16 0 ++ toLE16 (img.w - 1) ++ toLE16 (img.h - 1)
    ++ toLE16 P.hres.toNat ++ toLE16 P.vres.toNat ++ P.fallback
    ++ [P.reserved, BitVec.ofNat 8 img.planeCount] ++ toLE16 img.bplNat
    ++ toLE16 P.palinfo.toNat ++ toLE16 P.hscreen.toNat ++ toLE16 P.vscreen.toNat ++ P.filler

end Sys2Proof.Machine
end

