-- ==== Sys2Proof/Machine/Decoding.lean ====
section
/-! DEFINITION. The commands that read a stream: DECODE (spec/45_commands.md R354), PROBE (R355) and
RLE_DECODE (R362). -/

namespace Sys2Proof.Machine

open Host

/-- The staged Image before any buffer is written (spec/20_memory.md R79). -/
def stagedImage (w h : Nat) (bpl : BitVec 16) : Image :=
  { repr := .absent, width := BitVec.ofNat 17 w, height := BitVec.ofNat 17 h, bpl := bpl,
    pal := [], idx := [], pix := [] }

/-- The degenerate Image (spec/40_header.md R152): INDEXED whatever the plane count. -/
def degenerateImage (info : HeaderInfo) : Image :=
  let pal := fallbackPalette info.hdr.fb
  let idx := List.replicate (info.w * info.h) 0xFF#8
  { stagedImage info.w info.h info.hdr.bpl with
    repr := .indexed, pal := pal, idx := idx, pix := depalettize pal idx }

/-- RES2 on the degenerate path, and of PROBE (spec/10_state.md R52). -/
def headerResults (info : HeaderInfo) (degenerate : Bool) : Res2 :=
  { bpl := info.hdr.bpl, planes := info.hdr.planes, degenerate := degenerate, explicitPal := false,
    truncated := false }

/-- The engine of a DECODE (R354): k × BPL bytes a scanline, H scanlines; FILL is the sentinel for one
plane and the draw `PLANE_FILL` for three (spec/41_rle_decoder.md R185). -/
def decodeEngine (ix : Draw) (info : HeaderInfo) : Engine :=
  { lineLen := info.hdr.planes.toNat * info.hdr.bpl.toNat
    lines := info.h
    fill := if info.hdr.planes = 1#8 then 0xFF#8 else Config.planeFill ix
    consumer := if info.hdr.planes = 1#8 then .indexed else .planar
    staged := stagedImage info.w info.h info.hdr.bpl
    y := 0, x := 0, rem := 0, val := 0#8, stopped := false }

/-- A DECODE whose header was latched: the skip of the tail (spec/40_header.md R151), then the degenerate
path, which ends here, or the body. -/
def decodeTail (info : HeaderInfo) (s : State) (p : Ports) : Outcome State Fault Refusal :=
  match skip 60 p with
  | .ok true p =>
    conclude s (.ok () p) fun _ s =>
      setResults info.w info.h (headerResults info true) (commitImage (degenerateImage info) s)
  | .ok false p => continueBody s (enterBody s.cfg (decodeEngine s.freeIx info) p)
  | .error e p => .next (raiseError e p s)
  | .stall p => .next (stallCommand p s)
  | .refuse why => .refused why

/-- DECODE up to its body, after the prologue (R354). HDR holds the header from its reading on
(spec/10_state.md R60, spec/40_header.md R146), so also while the skip is never answered. -/
def beginDecode (s : State) : Outcome State Fault Refusal :=
  match headerRead s.cfg s.ports with
  | .ok info p => decodeTail info { s with hdr := info.hdr } p
  | .error e p => .next (raiseError e p s)
  | .stall p => .next (stallCommand p s)
  | .refuse why => .refused why

/-- DECODE (R354). -/
def execDecode (s : State) : Outcome State Fault Refusal :=
  runCommand s fun s => wholeCommand (beginDecode s)

/-- PROBE (R355). -/
def execProbe (s : State) : Outcome State Fault Refusal :=
  runCommand s fun s =>
    conclude s (headerRead s.cfg s.ports) fun info s =>
      setResults info.w info.h (headerResults info false) s

/-- The engine of RLE_DECODE (R362): S = ARG0, L = ARG1, F = ARG2. It stages no Image. -/
def rawEngine (s : State) : Engine :=
  { lineLen := s.arg0.toNat
    lines := s.arg1.toNat
    fill := s.arg2
    consumer := .raw
    staged := stagedImage 0 0 0#16
    y := 0, x := 0, rem := 0, val := 0#8, stopped := false }

/-- RLE_DECODE up to its body, after the prologue (R362). -/
def beginRleDecode (s : State) : Outcome State Fault Refusal :=
  continueBody s
    ((require (decide (1 ≤ s.arg0.toNat ∧ s.arg0.toNat ≤ lineBound)) .badArg s.ports).andThen fun _ p =>
      enterBody s.cfg (rawEngine s) p)

/-- RLE_DECODE (R362). -/
def execRleDecode (s : State) : Outcome State Fault Refusal :=
  runCommand s fun s => wholeCommand (beginRleDecode s)

end Sys2Proof.Machine
end

