-- ==== Sys2Proof/Machine/Encoder.lean ====
section
/-! DEFINITION. The RLE encoder (spec/43_rle_encoder.md R260 to R264). -/

namespace Sys2Proof.Machine

/-- How many of the next bytes, at most `room`, equal `v` (R262). -/
def runLength (v : Byte) : Nat → List Byte → Nat
  | 0, _ => 0
  | _ + 1, [] => 0
  | room + 1, b :: rest => if b = v then runLength v room rest + 1 else 0

/-- The escape rule (R263). -/
def emitRun (len : Nat) (v : Byte) : List Byte :=
  if len ≤ 2 ∧ isMarker v = false then List.replicate len v
  else [0xC0#8 ||| BitVec.ofNat 8 len, v]

/-- The loop of R264: `d` is D[i .. N−1]. Each pass takes at least one byte, so the fuel N is enough. -/
def encodeLoop : Nat → Nat → Nat → Nat → List Byte → List Byte
  | 0, _, _, _, _ => []
  | _ + 1, _, _, _, [] => []
  | fuel + 1, n, c, i, v :: rest =>
    let limit := min (n - i) (min 0x3F (c - i % c))
    let len := runLength v (limit - 1) rest + 1
    emitRun len v ++ encodeLoop fuel n c (i + len) (rest.drop (len - 1))

/-- `RleEncode(D, N, C)` (R264), with N the length of D. -/
def rleEncode (d : List Byte) (c : Nat) : List Byte := encodeLoop d.length d.length c 0 d

end Sys2Proof.Machine
end

