-- ==== Sys2Proof/Machine/Loading.lean ====
section
/-! DEFINITION. The commands that take host data: LOAD_INDEXED (spec/45_commands.md R356),
LOAD_TRUECOLOR (R357) and RLE_ENCODE (R363), with the load validation of R368. -/

namespace Sys2Proof.Machine

open Host

/-- The geometry operands of a load, read once at command start (R368). -/
structure LoadGeometry where
  w : Nat
  h : Nat
  bpl : Nat
  deriving DecidableEq, Repr

/-- `W = reg[P_WIDTH]`, `H = reg[P_HEIGHT]`, `BPL = reg[P_BPL]` (R368). -/
def loadGeometry (s : State) : LoadGeometry := ⟨s.pWidth.toNat, s.pHeight.toNat, s.pBpl.toNat⟩

/-- Load validation (R368). -/
def checkLoad (cfg : Config) (g : LoadGeometry) (p : Ports) : Reply Unit :=
  (require (decide (1 ≤ g.w ∧ 1 ≤ g.h)) .zeroArea p).andThen fun _ p =>
  (require (decide (g.w ≤ g.bpl)) .bplLtWidth p).andThen fun _ p =>
    require (decide (g.w * g.h ≤ cfg.bufPixels)) .tooLarge p

/-- `In.ReadExact(n)` where SHORT is MalformedStructure SHORT_DATA (R356, R357, R363). -/
def readData (n : Nat) (p : Ports) : Reply (List Byte) :=
  (readExact n p).andThen fun r p =>
    match r with
    | some d => .ok d p
    | none => .error .shortData p

/-- An Image of the operand geometry. -/
def loadedImage (s : State) (repr : ImgRepr) (pal : List Sample) (idx : List Byte) (pix : List Sample) : Image :=
  { repr := repr, width := s.pWidth, height := s.pHeight, bpl := s.pBpl, pal := pal, idx := idx, pix := pix }

/-- LOAD_INDEXED (R356). What spec/10_state.md R40 does not let IMG_HEIGHT hold is not committed (log 14). -/
def execLoadIndexed (s : State) : Outcome State Fault Refusal :=
  runCommand s fun s =>
    let g := loadGeometry s
    conclude s
      ((checkLoad s.cfg g s.ports).andThen fun _ p =>
        (readData 768 p).andThen fun pal p =>
        (readData (g.w * g.h) p).andThen fun idx p =>
        (requireHeight g.h p).andThen fun _ p => .ok (pal, idx) p)
      fun r s =>
        let pal := paletteOfBytes r.1
        commitImage (loadedImage s .indexed pal r.2 (depalettize pal r.2)) s

/-- The samples of 4-byte R, G, B, A groups (R357). -/
def samplesOfBytes (n : Nat) (d : List Byte) : List Sample :=
  match n with
  | 0 => []
  | n + 1 => ⟨byteAt d 0, byteAt d 1, byteAt d 2, byteAt d 3⟩ :: samplesOfBytes n (d.drop 4)

/-- LOAD_TRUECOLOR (R357). What spec/10_state.md R40 does not let IMG_HEIGHT hold is not committed
(log 14). -/
def execLoadTruecolor (s : State) : Outcome State Fault Refusal :=
  runCommand s fun s =>
    let g := loadGeometry s
    conclude s
      ((checkLoad s.cfg g s.ports).andThen fun _ p =>
        (readData (4 * (g.w * g.h)) p).andThen fun d p =>
        (requireHeight g.h p).andThen fun _ p => .ok d p)
      fun d s =>
        commitImage (loadedImage s .truecolor [] [] (samplesOfBytes (g.w * g.h) d)) s

/-- RLE_ENCODE (R363): C = ARG0, N = ARG1. -/
def execRleEncode (s : State) : Outcome State Fault Refusal :=
  runCommand s fun s =>
    conclude s
      ((require (decide (1 ≤ s.arg0.toNat)) .badArg s.ports).andThen fun _ p =>
        (readData s.arg1.toNat p).andThen fun d p => write (rleEncode d s.arg0.toNat) p)
      noEffect

end Sys2Proof.Machine
end

