-- ==== Sys2Proof/Machine/Writers.lean ====
section
/-! DEFINITION. The Format Writers (spec/44_writers.md): the round-trip file (R292 to R295), the icon
(R297 to R306), the opaque bitmap (R307 to R309) and the alpha bitmap (R310 to R312). Each is the list
of its `Out.Write` requests, computed from the Image and the configuration (R290). -/

namespace Sys2Proof.Machine

/-- The elements of Image row `y` (R57, R58). -/
def rowOf {α : Type} (buf : List α) (w y : Nat) : List α := (buf.drop (y * w)).take w

/-- Rows in the order y = 0 .. H−1. -/
def topDown {α : Type} (h : Nat) (row : Nat → α) : List α := (List.range h).map row

/-- Output row r is Image row H − 1 − r (R291). -/
def bottomUp {α : Type} (h : Nat) (row : Nat → α) : List α := (List.range h).map fun r => row (h - 1 - r)

/-- `BGRA(p)` (spec/00_scope.md R22). -/
def bgra (p : Sample) : List Byte := [p.b, p.g, p.r, p.a]

/-- `RGB(p)` (R22). -/
def rgb (p : Sample) : List Byte := [p.r, p.g, p.b]

/-- The four lanes in the order of the internal buffer (spec/45_commands.md R359, R360). -/
def rgba (p : Sample) : List Byte := [p.r, p.g, p.b, p.a]

/-- A pixel row as BGRA bytes (R303, R309). -/
def bgraRow (img : Image) (y : Nat) : List Byte := (rowOf img.pix img.w y).flatMap bgra

/-! ### Round-trip file -/

/-- The padding of one plane segment of a body row (R293). -/
def linePad (cfg : Config) (img : Image) : List Byte :=
  match cfg.pcxLinePad with
  | .unpadded => []
  | .padToBpl => List.replicate (img.bplNat - img.w) 0#8

/-- One body row (R293). -/
def bodyRow (cfg : Config) (img : Image) (y : Nat) : List Byte :=
  let pad := linePad cfg img
  match img.repr with
  | .indexed => rowOf img.idx img.w y ++ pad
  | _ =>
    let row := rowOf img.pix img.w y
    (row.map Sample.r ++ pad) ++ (row.map Sample.g ++ pad) ++ (row.map Sample.b ++ pad)

/-- `BodySeq(img)` (R293). -/
def bodySeq (cfg : Config) (img : Image) : List Byte := (topDown img.h (bodyRow cfg img)).flatten

/-- The chunk size of the body's encoding (R294). -/
def bodyChunk (cfg : Config) (img : Image) : Nat :=
  match cfg.pcxLinePad with
  | .unpadded => min img.w img.bplNat * img.planeCount
  | .padToBpl => img.bplNat * img.planeCount

/-- `PaletteTrailer(img)` (R295). -/
def paletteTrailer (img : Image) : List Byte := 0x0C#8 :: img.pal.flatMap rgb

/-- The requests of WRITE_PCX (R292). -/
def pcxParts (cfg : Config) (img : Image) : List (List Byte) :=
  [headerBytes cfg img, rleEncode (bodySeq cfg img) (bodyChunk cfg img)] ++
    match img.repr with
    | .indexed => [paletteTrailer img]
    | _ => []

/-! ### Icon -/

/-- The icon's two forms (R298). -/
inductive IconForm where
  | ico8
  | ico32
  deriving DecidableEq, Repr

/-- The selection of R298. -/
def iconForm (img : Image) : IconForm :=
  if img.repr = .indexed ∧ 342 ≤ img.w * img.h then .ico8 else .ico32

/-- bpp of a form (R298). -/
def IconForm.bpp : IconForm → Nat
  | .ico8 => 8
  | .ico32 => 32

/-- xorStride (R303). -/
def xorStride (form : IconForm) (img : Image) : Nat :=
  match form with
  | .ico8 => 4 * ceilDiv img.w 4
  | .ico32 => 4 * img.w

/-- xorSize (R303). -/
def xorSize (form : IconForm) (img : Image) : Nat := img.h * xorStride form img

/-- andStride (R304). -/
def andStride (img : Image) : Nat := 4 * ceilDiv (ceilDiv img.w 8) 4

/-- andSize (R304). -/
def andSize (img : Image) : Nat := img.h * andStride img

/-- tableSize (R305). -/
def IconForm.tableSize : IconForm → Nat
  | .ico8 => 1024
  | .ico32 => 0

/-- bytesInRes (R305). -/
def bytesInRes (form : IconForm) (img : Image) : Nat :=
  40 + form.tableSize + xorSize form img + andSize img

/-- The icon header (R299). -/
def iconHeader : List Byte := toLE16 0 ++ toLE16 1 ++ toLE16 1

/-- The directory entry (R300). -/
def iconEntry (form : IconForm) (img : Image) : List Byte :=
  [BitVec.ofNat 8 (img.w % 256), BitVec.ofNat 8 (img.h % 256), 0#8, 0#8] ++ toLE16 1 ++ toLE16 form.bpp
    ++ toLE32 (bytesInRes form img) ++ toLE32 22

/-- The bitmap-info header (R301). -/
def iconInfo (form : IconForm) (img : Image) : List Byte :=
  toLE32 40 ++ toLE32 img.w ++ toLE32 (2 * img.h) ++ toLE16 1 ++ toLE16 form.bpp ++ toLE32 0
    ++ toLE32 (xorSize form img + andSize img) ++ toLE32 0 ++ toLE32 0 ++ toLE32 0 ++ toLE32 0

/-- The color table of ICO8 (R302). -/
def iconTable (img : Image) : List Byte := img.pal.flatMap fun p => [p.b, p.g, p.r, 0#8]

/-- One XOR row (R303). -/
def xorRow (form : IconForm) (img : Image) (y : Nat) : List Byte :=
  match form with
  | .ico8 => rowOf img.idx img.w y ++ List.replicate (xorStride form img - img.w) 0#8
  | .ico32 => bgraRow img y

/-- Which pixels of a row are fully transparent (R304). -/
def transparentRow (form : IconForm) (img : Image) (y : Nat) : List Bool :=
  match form with
  | .ico8 => (rowOf img.idx img.w y).map fun i => i == 0#8
  | .ico32 => (rowOf img.pix img.w y).map fun p => p.a == 0#8

/-- Byte `j` of a mask row: pixel x stands at bit 7 − (x mod 8) of byte x div 8 (R304). -/
def maskByte (ts : List Bool) (j : Nat) : Byte :=
  (List.range 8).foldl (fun m k => if ts.getD (8 * j + k) false then m ||| (0x80#8 >>> k) else m) 0#8

/-- One AND row (R304). -/
def andRow (form : IconForm) (img : Image) (y : Nat) : List Byte :=
  (List.range (andStride img)).map (maskByte (transparentRow form img y))

/-- The requests of WRITE_ICO after the size check (R306). -/
def icoParts (img : Image) : List (List Byte) :=
  let form := iconForm img
  [iconHeader, iconEntry form img, iconInfo form img] ++
    (match form with
      | .ico8 => [iconTable img]
      | .ico32 => []) ++
    bottomUp img.h (xorRow form img) ++ bottomUp img.h (andRow form img)

/-! ### Bitmaps -/

/-- A bitmap file header whose pixel data starts at `offset` (R307, R310). -/
def bmpFileHeader (offset : Nat) (img : Image) : List Byte :=
  [0x42#8, 0x4D#8] ++ toLE32 (offset + 4 * img.w * img.h) ++ toLE16 0 ++ toLE16 0 ++ toLE32 offset

/-- The opaque bitmap's info header (R308). -/
def bmpInfo (img : Image) : List Byte :=
  toLE32 40 ++ toLE32 img.w ++ toLE32 img.h ++ toLE16 1 ++ toLE16 32 ++ toLE32 0
    ++ toLE32 (4 * img.w * img.h) ++ toLE32 0 ++ toLE32 0 ++ toLE32 0 ++ toLE32 0

/-- The requests of WRITE_BMP (R307 to R309). -/
def bmpParts (img : Image) : List (List Byte) :=
  [bmpFileHeader 54 img, bmpInfo img] ++ bottomUp img.h (bgraRow img)

/-- The alpha bitmap's extended info header (R311). -/
def bmpaInfo (img : Image) : List Byte :=
  toLE32 108 ++ toLE32 img.w ++ toLE32 img.h ++ toLE16 1 ++ toLE16 32 ++ toLE32 3
    ++ toLE32 (4 * img.w * img.h) ++ toLE32 0 ++ toLE32 0 ++ toLE32 0 ++ toLE32 0
    ++ toLE32 0x00FF0000 ++ toLE32 0x0000FF00 ++ toLE32 0x000000FF ++ toLE32 0xFF000000
    ++ toLE32 0x73524742 ++ List.replicate 36 0#8 ++ toLE32 0 ++ toLE32 0 ++ toLE32 0

/-- The requests of WRITE_BMPA (R310 to R312). -/
def bmpaParts (img : Image) : List (List Byte) :=
  [bmpFileHeader 122 img, bmpaInfo img] ++ bottomUp img.h (bgraRow img)

end Sys2Proof.Machine
end

