-- ==== Sys2Proof/Machine/Reading.lean ====
section
/-! DEFINITION. The commands that take no input: NOP (spec/45_commands.md R353), CLEAR (R361), READ_INDEX
(R358), READ_PALETTE (R359), READ_PIXELS (R360), WRITE_PCX (R364), WRITE_ICO (R365), WRITE_BMP (R366)
and WRITE_BMPA (R367). -/

namespace Sys2Proof.Machine

open Host

/-- NOP (R353): no body. -/
def execNop (s : State) : Outcome State Fault Refusal :=
  runCommand s fun s => conclude s (.ok () s.ports) noEffect

/-- The Image after CLEAR (R361): none, and the buffers' contents are unspecified (log 7). Where there was
none, nothing changes. -/
def clearedImage (ix : Draw) (img : Image) : Image :=
  match img.repr with
  | .absent => { img with width := 0#17, height := 0#17, bpl := 0#16 }
  | _ => { Image.none with pal := unspecPal ix }

/-- CLEAR (R361). -/
def execClear (s : State) : Outcome State Fault Refusal :=
  runCommand s fun s =>
    conclude s (.ok () s.ports) fun _ s => { s with image := clearedImage s.freeIx s.image }

/-- A command that writes the committed Image out (R352, R290): its precondition, its requests, and no
effect on the Image or the registers. -/
def emitImage (s : State) (check : Image → Ports → Reply Unit) (parts : Image → List (List Byte)) :
    Outcome State Fault Refusal :=
  conclude s ((check s.image s.ports).andThen fun _ p => writeAll (parts s.image) p) noEffect

/-- READ_INDEX (R358). -/
def execReadIndex (s : State) : Outcome State Fault Refusal :=
  runCommand s fun s => emitImage s requireIndexed fun img => [img.idx]

/-- READ_PALETTE (R359): one request per entry. -/
def execReadPalette (s : State) : Outcome State Fault Refusal :=
  runCommand s fun s => emitImage s requireIndexed fun img => img.pal.map rgba

/-- READ_PIXELS (R360): one request per pixel. -/
def execReadPixels (s : State) : Outcome State Fault Refusal :=
  runCommand s fun s => emitImage s requireImage fun img => img.pix.map rgba

/-- WRITE_PCX (R364, spec/44_writers.md R292). -/
def execWritePcx (s : State) : Outcome State Fault Refusal :=
  runCommand s fun s => emitImage s requireImage (pcxParts s.cfg)

/-- The icon size check (spec/44_writers.md R297), after the Image precondition and before any output. -/
def requireIcon (img : Image) (p : Ports) : Reply Unit :=
  (requireImage img p).andThen fun _ p =>
    require (decide (img.w ≤ 256 ∧ img.h ≤ 256)) .iconOversize p

/-- WRITE_ICO (R365, spec/44_writers.md R306). -/
def execWriteIco (s : State) : Outcome State Fault Refusal :=
  runCommand s fun s => emitImage s requireIcon icoParts

/-- WRITE_BMP (R366, spec/44_writers.md R307 to R309). -/
def execWriteBmp (s : State) : Outcome State Fault Refusal :=
  runCommand s fun s => emitImage s requireImage bmpParts

/-- WRITE_BMPA (R367, spec/44_writers.md R310 to R312). -/
def execWriteBmpa (s : State) : Outcome State Fault Refusal :=
  runCommand s fun s => emitImage s requireImage bmpaParts

end Sys2Proof.Machine
end

