-- ==== Sys2Proof/Machine/Dispatch.lean ====
section
/-! DEFINITION. One arm per instruction. -/

namespace Sys2Proof.Machine

/-- The meaning of every instruction. -/
def exec (i : Instr) (s : State) : Host.Outcome State Fault Refusal :=
  match i with
  | .lit v => Sys2Proof.Machine.execLit v s
  | .run n v => Sys2Proof.Machine.execRun n v s
  | .nop => Sys2Proof.Machine.execNop s
  | .decode => Sys2Proof.Machine.execDecode s
  | .probe => Sys2Proof.Machine.execProbe s
  | .loadIndexed => Sys2Proof.Machine.execLoadIndexed s
  | .loadTruecolor => Sys2Proof.Machine.execLoadTruecolor s
  | .readIndex => Sys2Proof.Machine.execReadIndex s
  | .readPalette => Sys2Proof.Machine.execReadPalette s
  | .readPixels => Sys2Proof.Machine.execReadPixels s
  | .clear => Sys2Proof.Machine.execClear s
  | .rleDecode => Sys2Proof.Machine.execRleDecode s
  | .rleEncode => Sys2Proof.Machine.execRleEncode s
  | .writePcx => Sys2Proof.Machine.execWritePcx s
  | .writeIco => Sys2Proof.Machine.execWriteIco s
  | .writeBmp => Sys2Proof.Machine.execWriteBmp s
  | .writeBmpa => Sys2Proof.Machine.execWriteBmpa s

end Sys2Proof.Machine
end

