-- ==== Sys2Proof/Machine/Agents.lean ====
section
/-! DEFINITION. The two agents of spec/10_state.md R30. The core moves by a whole command or by one code
(log 9); the host reads and writes registers, attaches input, polls, collects output and resets
(spec/30_encoding.md R114, spec/70_reset_and_hazards.md). -/

namespace Sys2Proof.Machine

open Host

/-! ### The core -/

/-- An accepted command, performed whole (spec/45_commands.md R350, R351). -/
def performCommand (op : Byte) (s : State) : Outcome State Fault Refusal :=
  match decodeOpcode op with
  | some i => exec i s
  | none => execUnknownOpcode s

/-- An accepted command begun, up to the first code of its body; a command without a body is performed
whole. -/
def beginCommand (op : Byte) (s : State) : Outcome State Fault Refusal :=
  match decodeOpcode op with
  | some .decode => runCommand s beginDecode
  | some .rleDecode => runCommand s beginRleDecode
  | _ => performCommand op s

/-- One move of the core. When idle, or when a port never answers, it does nothing
(spec/60_exceptions.md R420, spec/70_reset_and_hazards.md R452). -/
def coreMove (g : Grain) (s : State) : Outcome State Fault Refusal :=
  match s.phase with
  | .idle => .next s
  | .stalled => .next s
  | .accepted op =>
    match g with
    | .command => performCommand op s
    | .code => beginCommand op s
  | .body _ =>
    match g with
    | .command => finishCommand s
    | .code => codeStep exec s

/-! ### The host -/

/-- A register read (R71): the value goes to the host. While BUSY the value of most registers is
unspecified, a fresh free value (spec/70_reset_and_hazards.md R448, log 12). -/
def readAt (r : Reg) (s : State) : State :=
  if s.status.busy ∧ r.steadyWhileBusy = false then
    { s with rdata := Config.busyWord s.freeIx, freeIx := s.freeIx.next }
  else { s with rdata := readReg s r }

/-- A write to CMD (spec/10_state.md R36): while BUSY the hazard of R445; with bits [31:8] set it changes
nothing; otherwise the command is accepted. -/
def writeCmd (v : Word) (s : State) : Outcome State Fault Refusal :=
  if s.status.busy then .fault .cmdWhileBusy
  else if commandMbz v ≠ 0#24 then .next s
  else .next (acceptCommand (commandOpcode v) s)

/-- A register write (R71, R34): the hazards of R445 and R446, the operand registers, and everything else
ignored. -/
def writeAt (r : Reg) (v : Word) (s : State) : Outcome State Fault Refusal :=
  if r = .cmd then writeCmd v s
  else if r.isOperand = true ∧ s.status.busy = true then .fault .operandWhileBusy
  else .next (writeReg s r v)

/-- What R71 asks of an access: 32 bits, aligned, inside the block. -/
def accessRefusal (width offset : Nat) : Option Refusal :=
  if width ≠ 32 then some .accessWidth
  else if offset % 4 ≠ 0 then some .accessUnaligned
  else if 0xFC < offset then some .accessOutside
  else none

/-- A host read at a block offset. -/
def hostRead (width offset : Nat) (s : State) : Outcome State Fault Refusal :=
  match accessRefusal width offset with
  | some why => .refused why
  | none => .next (readAt (regAt offset) s)

/-- A host write at a block offset. -/
def hostWrite (width offset : Nat) (v : Word) (s : State) : Outcome State Fault Refusal :=
  match accessRefusal width offset with
  | some why => .refused why
  | none => writeAt (regAt offset) v s

/-- Attaching the input sequence (R72), which must not happen while a command runs and must be shorter
than 2^32 bytes (spec/70_reset_and_hazards.md R447). -/
def hostAttach (bytes : List Byte) (s : State) : Outcome State Fault Refusal :=
  if s.status.busy then .refused .inputWhileBusy
  else if 2 ^ 32 ≤ bytes.length then .refused .inputTooLong
  else .next { s with ports := { s.ports with input := bytes } }

/-- The output of the command in progress, were it to run to its end. -/
def wholeOutput (s : State) : List Byte :=
  match coreMove .command s with
  | .next t => t.ports.output
  | .fault _ => s.ports.output
  | .refused _ => s.ports.output

/-- Any first part of the running command's output (R442): its length is a free value. -/
def partialOutput (s : State) : List Byte :=
  (wholeOutput s).take (Config.freeLength s.freeIx % ((wholeOutput s).length + 1))

/-- Collecting the output (R77, R449). While BUSY it is incomplete: any first part (R448, log 17). After a
reset, with no command ended since, no sequence is pending (R441), and what the host's port holds from an
abandoned command stays there (R442): the model's choice (log 11). -/
def hostCollect (s : State) : State :=
  if s.status.busy then { s with collected := partialOutput s, freeIx := s.freeIx.next }
  else if s.status.done then { s with collected := s.ports.output }
  else s

/-- The platform reset (R440 to R442): the state of R441. A command in progress is abandoned, and any
first part of its output stays where the host's port put it. What belongs to the host and the platform
stays (log 11). -/
def resetCore (s : State) : State :=
  { State.reset with
    cfg := s.cfg
    ports := { input := if s.status.busy then [] else s.ports.input, cursor := 0, output := [],
               draws := s.ports.draws }
    host := s.host
    rdata := s.rdata
    collected := if s.status.busy then partialOutput s else s.collected
    freeIx := s.freeIx.next }

/-- One action of the host; the rest of its queue is in the state. -/
def hostMove (op : HostOp) (s : State) : Outcome State Fault Refusal :=
  match op with
  | .attach bytes => hostAttach bytes s
  | .portDraws ds => .next { s with ports := { s.ports with draws := ds } }
  | .read width offset => hostRead width offset s
  | .write width offset v => hostWrite width offset v s
  | .busRead address =>
    match busOffset s.cfg address with
    | some offset => hostRead 32 offset s
    | none => .refused .accessOutside
  | .busWrite address v =>
    match busOffset s.cfg address with
    | some offset => hostWrite 32 offset v s
    | none => .refused .accessOutside
  | .wait => if s.status.done then .next s else coreMove .command { s with host := .wait :: s.host }
  | .grant g => coreMove g s
  | .collect => .next (hostCollect s)
  | .reset => .next (resetCore s)

/-- One step of the whole: the host's next action, or, when it has none, a whole command of the core. -/
def agentsMove (s : State) : Outcome State Fault Refusal :=
  match s.host with
  | [] => coreMove .command s
  | op :: rest => hostMove op { s with host := rest }

/-! ### The host-program notation (spec/30_encoding.md R114) -/

/-- `wr NAME, value`. -/
def wr (r : Reg) (v : Word) : HostOp := .write 32 r.offset v

/-- `rd NAME`. -/
def rd (r : Reg) : HostOp := .read 32 r.offset

/-- `cmd MNEMONIC` for an instruction that is a command. -/
def cmd (i : Instr) : Option HostOp :=
  match encode i with
  | .command w => some (wr .cmd w)
  | .code _ => none

/-- The encoding of a host program: the list of its (offset, value) register writes (R114). -/
def programWrites : List HostOp → List (Nat × Word)
  | [] => []
  | .write _ offset v :: rest => (offset, v) :: programWrites rest
  | .busWrite address v :: rest => (address % 256, v) :: programWrites rest
  | _ :: rest => programWrites rest

/-! ### Placing an instruction for the next step -/

/-- The engine a placed code byte runs in when no body is running: one raw scanline of 64 positions, wide
enough for the longest run (log 19). -/
def placedEngine : Engine :=
  { lineLen := 64, lines := 1, fill := 0#8, consumer := .raw,
    staged := { repr := .absent, width := 0#17, height := 0#17, bpl := 0#16, pal := [], idx := [], pix := [] }
    y := 0, x := 0, rem := 0, val := 0#8, stopped := false }

/-- A code's bytes placed where the engine fetches: at the input cursor of a running body. -/
def placeCode (bytes : List Byte) (s : State) : State :=
  match s.phase with
  | .body _ =>
    { s with host := .grant .code :: s.host, ports := { s.ports with input := bytes, draws := [] } }
  | _ =>
    { s with
      status := Status.running
      phase := .body placedEngine
      line := List.replicate 64 0#8
      host := .grant .code :: s.host
      ports := { s.ports with input := bytes, draws := [] } }

/-- A command word placed: accepted, and the core's turn. A word with bits [31:8] set starts nothing, so
it stands as a CMD write (R36). -/
def placeCommand (w : Word) (s : State) : State :=
  if commandMbz w ≠ 0#24 then { s with host := .write 32 0x04 w :: s.host }
  else { acceptCommand (commandOpcode w) s with host := .grant .command :: s.host }

/-- A table word placed where the next step fetches. -/
def placeTableWord (nbits w : Nat) (s : State) : State :=
  if nbits ≤ 16 then placeCode (tableCodeBytes w) s else placeCommand (BitVec.ofNat 32 w) s

end Sys2Proof.Machine
end

