-- ==== Sys2Proof/Machine/Step.lean ====
section
/-! DEFINITION. One step of the machine, and the placing of an instruction for the next step. -/

namespace Sys2Proof.Machine

/-- One step: the host's next action or, when it has none, the core's move. -/
def step (s : State) : Host.Outcome State Fault Refusal := agentsMove s

/-- The state whose next step fetches and runs the table word `w` (log 19). -/
def State.withFetchWord (s : State) (nbits w : Nat) : State := placeTableWord nbits w s

end Sys2Proof.Machine
end

