-- ==== Sys2Proof/Machine/Platform.lean ====
section
/-! DEFINITION. A platform of independent instances (spec/00_scope.md R15, spec/60_exceptions.md R425):
each has its own register block at its own base, its own ports, Image and scratch state, and they share
nothing. -/

namespace Sys2Proof.Machine

open Host

/-- Instance `k` takes one step; none where there is no such instance. -/
def platformStep (k : Nat) (cores : List State) : Option (Outcome (List State) Fault Refusal) :=
  match cores[k]? with
  | none => none
  | some s =>
    match step s with
    | .next t => some (.next (cores.set k t))
    | .fault why => some (.fault why)
    | .refused why => some (.refused why)

/-- The instance numbers and bases of a platform: one block of 256 bytes for each of the `N_INSTANCES`
cores, each at its own `MPCX_BASE` (R15, R425, spec/20_memory.md R83). -/
abbrev basesOk (cfg : Config) (bases : List Nat) : Prop :=
  bases.length = cfg.nInstances ∧ bases.Nodup ∧ ∀ base ∈ bases, base % 256 = 0

/-- Instance `k` after reset, with its block at `base`. Its free values are its own (log 3). -/
def coreReset (cfg : Config) (k base : Nat) : State :=
  { State.reset with cfg := { cfg with mpcxBase := base }, freeIx := { core := k, count := 0 } }

/-- A platform after reset: each instance starts from reset on its own, its block at its own base
(R425). -/
def platformReset (cfg : Config) (bases : List Nat) : List State := bases.mapIdx (coreReset cfg)

/-- The instance whose block holds a bus address (R83, R425). -/
def coreAt (cores : List State) (address : Nat) : Option Nat :=
  cores.findIdx? fun s => (busOffset s.cfg address).isSome

end Sys2Proof.Machine
end

