-- ==== Sys2Proof/Machine/Reference.lean ====
section
/-! DEFINITION. DecodeBody and the Palette Resolver once more, as plain functions of the bytes left and
without ports: spec/41_rle_decoder.md R184 written out loop by loop, and spec/42_palette_pixels.md R221
to R225. The machine does not use them; claims say that it agrees with them. -/

namespace Sys2Proof.Machine

/-- The variables of R184's loops. -/
structure RefBody where
  line : List Byte
  x : Nat
  rem : Nat
  val : Byte
  stopped : Bool
  input : List Byte
  deriving DecidableEq, Repr

/-- `LINE[x] <- val; x <- x + 1; rem <- rem - 1`. -/
def RefBody.store (r : RefBody) : RefBody :=
  { r with line := r.line.set r.x r.val, x := r.x + 1, rem := r.rem - 1 }

/-- One pass of R184's `while` loop. -/
def RefBody.pass (r : RefBody) : RefBody :=
  if r.rem = 0 then
    match r.input with
    | [] => { r with stopped := true }
    | b :: rest =>
      if isMarker b then
        match rest with
        | [] => { r with stopped := true, input := [] }
        | d :: rest' => { r with rem := (b &&& 0x3F#8).toNat, val := d, input := rest' }
      else RefBody.store { r with rem := 1, val := b, input := rest }
  else r.store

/-- The `while` loop of R184 over a scanline of `lineLen` positions. -/
def refLine (lineLen : Nat) : Nat → RefBody → RefBody
  | 0, r => r
  | n + 1, r => if r.x < lineLen ∧ r.stopped = false then refLine lineLen n r.pass else r

/-- The `for` loop of R184: the scanlines in order and the variables at the end. Each pass of the inner
loop writes a position, takes a byte or stops (R195), which bounds its passes. -/
def refLines (policy : LineRunPolicy) (lineLen : Nat) (fill : Byte) : Nat → RefBody → List (List Byte) × RefBody
  | 0, r => ([], r)
  | n + 1, r =>
    let r0 : RefBody :=
      { r with line := List.replicate lineLen fill, x := 0,
               rem := match policy with | .clip => 0 | .carry => r.rem }
    let r1 := refLine lineLen (lineLen + r0.input.length + 1) r0
    let rest := refLines policy lineLen fill n r1
    (r1.line :: rest.1, rest.2)

/-- DecodeBody(S, L, FILL, emit) (R184): the emitted scanlines, TRUNCATED, and the bytes left. -/
def refDecodeBody (policy : LineRunPolicy) (lineLen lines : Nat) (fill : Byte) (input : List Byte) :
    List (List Byte) × Bool × List Byte :=
  let r := refLines policy lineLen fill lines
    { line := [], x := 0, rem := 0, val := 0#8, stopped := false, input := input }
  (r.1, r.2.stopped, r.2.input)

/-- ScanForMarker (R221): whether the marker was found, and the bytes left. -/
def refScan : List Byte → Bool × List Byte
  | [] => (false, [])
  | b :: rest =>
    if b = 0x00#8 then refScan rest
    else if b = 0x0C#8 then (true, rest)
    else (false, rest)

/-- The Palette Resolver (R221 to R225): the palette, EXPLICIT, and the bytes left. A byte the stream
lacks reads 0xFF. -/
def refPalette (fb : List Rgb) (input : List Byte) : List Sample × Bool × List Byte :=
  let r := refScan input
  if r.1 then
    (paletteOfBytes ((r.2 ++ List.replicate 768 0xFF#8).take 768), true, r.2.drop 768)
  else (fallbackPalette fb, false, r.2)

end Sys2Proof.Machine
end

