-- ==== Sys2Proof/Safety.lean ====
section
/-! DEFINITION. The terms claims are made in: the invariant of the machine, the premises of a command, and
the ways a command can end. -/

namespace Sys2Proof.Machine

/-! ### The invariant -/

/-- The buffers have the sizes that spec/20_memory.md R78 gives them for the Image's geometry. -/
abbrev Memory.wf (img : Image) : Prop :=
  img.pal.length = 256 ∧ img.idx.length = img.area ∧ img.pix.length = img.area

/-- The palette's alpha invariant (spec/10_state.md R56). -/
abbrev alphaForced (pal : List Sample) : Prop :=
  (pal.getD 0 Sample.zero).a = 0#8 ∧ ∀ p ∈ pal.tail, p.a = 255#8

/-- The geometry invariants of an Image that is there (R54), and the bound of R40 on its height. -/
abbrev geometryOk (cfg : Config) (w h bpl : Nat) : Prop :=
  1 ≤ w ∧ 1 ≤ h ∧ w ≤ bpl ∧ w * h ≤ cfg.bufPixels ∧ h ≤ 65535

/-- The Image's invariants: R54 (geometry), R56 (alpha), R58 (PIX is the lookup of IDX in PAL). -/
abbrev Image.Ok (cfg : Config) (img : Image) : Prop :=
  Memory.wf img ∧
  (img.repr = .absent → img.width = 0#17 ∧ img.height = 0#17 ∧ img.bpl = 0#16) ∧
  (img.repr ≠ .absent → geometryOk cfg img.w img.h img.bplNat) ∧
  (img.repr = .indexed → alphaForced img.pal ∧ img.pix = depalettize img.pal img.idx)

/-- The legal combinations of STATUS (R37). -/
abbrev Status.Legal (st : Status) : Prop :=
  (st.busy = true → st.done = false) ∧ (st.done = false → st.error = none)

/-- A body at a code boundary (spec/41_rle_decoder.md R184): a position is left to fill, no run is
pending, and the staged rows are those emitted so far. -/
abbrev Engine.Ok (s : State) (e : Engine) : Prop :=
  e.y < e.lines ∧ e.x < e.lineLen ∧ e.rem = 0 ∧ e.stopped = false ∧ e.lineLen ≤ lineBound ∧
  s.line.length = e.lineLen ∧
  (e.consumer = .raw → e.lineLen = s.arg0.toNat ∧ e.lines = s.arg1.toNat ∧ e.fill = s.arg2) ∧
  (e.consumer ≠ .raw → geometryOk s.cfg e.staged.w e.staged.h e.staged.bplNat ∧
    e.lines = e.staged.h ∧ s.hdr.bpl = e.staged.bpl) ∧
  (e.consumer = .indexed → e.lineLen = e.staged.bplNat ∧ e.fill = 0xFF#8 ∧ s.hdr.planes = 1#8 ∧
    e.staged.idx.length = e.y * e.staged.w) ∧
  (e.consumer = .planar → e.lineLen = 3 * e.staged.bplNat ∧ s.hdr.planes = 3#8 ∧
    e.staged.pix.length = e.y * e.staged.w)

/-- The running body, where there is one. -/
def Phase.engine : Phase → Option Engine
  | .body e => some e
  | _ => none

/-- The phase's own invariant. -/
abbrev phaseOk (s : State) : Prop := ∀ e ∈ s.phase.engine, Engine.Ok s e

/-- The invariant of the machine. -/
abbrev State.Inv (s : State) : Prop :=
  s.cfg.Ok ∧ Image.Ok s.cfg s.image ∧ s.status.Legal ∧
  (s.status.busy = true ↔ s.phase ≠ .idle) ∧
  (s.status.done = true →
    s.inPos = BitVec.ofNat 32 s.ports.cursor ∧ s.outLen = BitVec.ofNat 32 s.ports.output.length) ∧
  phaseOk s

/-! ### Premises of a command -/

/-- Whether a command may begin in this phase. -/
def Phase.ready : Phase → Bool
  | .idle => true
  | .accepted _ => true
  | .body _ => false
  | .stalled => false

/-- No other command is in progress: the core is idle, or this command was accepted. -/
abbrev State.Ready (s : State) : Prop := s.phase.ready = true

/-- No port request fails or goes unanswered (the premise of spec/20_memory.md R76). -/
abbrev State.PortsAnswer (s : State) : Prop := ∀ d ∈ s.ports.draws, d = PortDraw.ok

/-- The port answers the request, as it should or with a failure. -/
def PortDraw.answered : PortDraw → Bool
  | .ok => true
  | .fail _ => true
  | .never _ => false

/-- No port request goes unanswered. -/
abbrev State.NoSilence (s : State) : Prop := ∀ d ∈ s.ports.draws, d.answered = true

/-- No byte of the list is a run marker: as codes they are LITs (spec/30_encoding.md R100). -/
abbrev literal (bs : List Byte) : Prop := ∀ b ∈ bs, isMarker b = false

/-- The header a stream of 68 bytes or more begins with. -/
def streamHeader (s : State) : Header := parseHeader (s.ports.input.take 68)

/-- A header that passes every check (spec/40_header.md R148, R149), with H in the range of
spec/00_scope.md R16. -/
abbrev Header.Accepted (cfg : Config) (h : Header) : Prop :=
  h.bpp = 8#8 ∧ (h.planes = 1#8 ∨ h.planes = 3#8) ∧ 1 ≤ h.width ∧ 1 ≤ h.height ∧
    h.width ≤ (h.bpl.toNat : Int) ∧ h.width * h.height ≤ (cfg.bufPixels : Int) ∧
    h.height ≤ 65535

/-- Operands that pass load validation (spec/45_commands.md R368), with H in the range of
spec/10_state.md R40. -/
abbrev LoadAccepted (s : State) : Prop :=
  geometryOk s.cfg s.pWidth.toNat s.pHeight.toNat s.pBpl.toNat

/-! ### How a command ends -/

/-- What the end of a command sets (spec/10_state.md R48, R49, spec/45_commands.md R352,
spec/60_exceptions.md R410): STATUS, IN_POS and OUT_LEN; `used` bytes were consumed and `out` is the
output sequence. -/
abbrev Ended (t : State) (st : Status) (used : Nat) (out : List Byte) : Prop :=
  t.status = st ∧ t.inPos = BitVec.ofNat 32 used ∧ t.outLen = BitVec.ofNat 32 out.length ∧
  t.ports.output = out ∧ t.ports.cursor = used ∧ t.ports.input = [] ∧ t.phase = .idle

/-- The operand registers, the configuration and the host's side are as before. -/
abbrev KeepsOperands (s t : State) : Prop :=
  t.pWidth = s.pWidth ∧ t.pHeight = s.pHeight ∧ t.pBpl = s.pBpl ∧ t.arg0 = s.arg0 ∧ t.arg1 = s.arg1 ∧
  t.arg2 = s.arg2 ∧ t.cfg = s.cfg ∧ t.host = s.host ∧ t.rdata = s.rdata ∧ t.collected = s.collected

/-- RES0 to RES2 are as before. -/
abbrev KeepsResults (s t : State) : Prop := t.res0 = s.res0 ∧ t.res1 = s.res1 ∧ t.res2 = s.res2

/-- Everything a command leaves alone that has no effect of its own: the Image, the results, the operands. -/
abbrev KeepsAll (s t : State) : Prop := t.image = s.image ∧ KeepsResults s t ∧ KeepsOperands s t

/-- The instruction is one of the two code forms (spec/00_scope.md R3). -/
abbrev isCodeForm (i : Instr) : Prop := codeBytes i ≠ []

/-- The first check of spec/40_header.md R148 and R149 that a header fails, in the order of R150. -/
def headerError (cfg : Config) (h : Header) : Option CmdError :=
  if h.bpp ≠ 8#8 then some .bppNot8
  else if h.planes ≠ 1#8 ∧ h.planes ≠ 3#8 then some .planesInvalid
  else if h.width < 1 ∨ h.height < 1 then some .zeroArea
  else if (h.bpl.toNat : Int) < h.width then some .bplLtWidth
  else if (cfg.bufPixels : Int) < h.width * h.height then some .tooLarge
  else none

/-- The first check of load validation that fails (spec/45_commands.md R368). -/
def loadError (s : State) : Option CmdError :=
  if s.pWidth.toNat < 1 ∨ s.pHeight.toNat < 1 then some .zeroArea
  else if s.pBpl.toNat < s.pWidth.toNat then some .bplLtWidth
  else if s.cfg.bufPixels < s.pWidth.toNat * s.pHeight.toNat then some .tooLarge
  else none

/-- The errors an instruction can end with, row by row (spec/60_exceptions.md R406). -/
def errorsOf : Instr → List CmdError
  | .lit _ => []
  | .run _ _ => []
  | .nop => []
  | .clear => []
  | .decode => [.accessIn, .shortHeader, .bppNot8, .planesInvalid, .zeroArea, .bplLtWidth, .tooLarge]
  | .probe => [.accessIn, .shortHeader, .bppNot8, .planesInvalid, .zeroArea, .bplLtWidth, .tooLarge]
  | .loadIndexed => [.accessIn, .shortData, .zeroArea, .bplLtWidth, .tooLarge]
  | .loadTruecolor => [.accessIn, .shortData, .zeroArea, .bplLtWidth, .tooLarge]
  | .readIndex => [.accessOut, .noImage, .wrongRepr]
  | .readPalette => [.accessOut, .noImage, .wrongRepr]
  | .readPixels => [.accessOut, .noImage]
  | .writePcx => [.accessOut, .noImage]
  | .writeBmp => [.accessOut, .noImage]
  | .writeBmpa => [.accessOut, .noImage]
  | .writeIco => [.accessOut, .noImage, .iconOversize]
  | .rleDecode => [.accessIn, .accessOut, .badArg]
  | .rleEncode => [.accessIn, .accessOut, .shortData, .badArg]

/-- `n` moves of the core, one code at a time, stopping at the first that is no next state. -/
def codeMoves : Nat → State → Host.Outcome State Fault Refusal
  | 0, s => .next s
  | n + 1, s =>
    match coreMove .code s with
    | .next t => codeMoves n t
    | .fault why => .fault why
    | .refused why => .refused why

/-- The bytes a row of codes stands for. -/
def codesExpand : List Instr → List Byte
  | [] => []
  | .lit v :: rest => v :: codesExpand rest
  | .run n v :: rest => List.replicate n.toNat v ++ codesExpand rest
  | _ :: rest => codesExpand rest

/-- The number of bytes one code stands for. -/
def codeCount (i : Instr) : Nat := (codesExpand [i]).length

end Sys2Proof.Machine
end

