-- ==== Sys2Proof/WellFormed.lean ====
section
/-! DEFINITION. Which instructions can be written: a LIT holds no marker value (spec/30_encoding.md
R101, R112); every other instruction is well-formed. -/

namespace Sys2Proof

/-- The check on one instruction. -/
def Instr.wellFormed : Instr → Bool
  | .lit v => !isMarker v
  | .run _ _ => true
  | .nop => true
  | .decode => true
  | .probe => true
  | .loadIndexed => true
  | .loadTruecolor => true
  | .readIndex => true
  | .readPalette => true
  | .readPixels => true
  | .clear => true
  | .rleDecode => true
  | .rleEncode => true
  | .writePcx => true
  | .writeIco => true
  | .writeBmp => true
  | .writeBmpa => true

/-- The check as a proposition. -/
abbrev Instr.WellFormed (i : Instr) : Prop := i.wellFormed = true

end Sys2Proof
end

