-- ==== Sys2Proof/Certificates/Slice0/Obligations.lean ====
section
/-! DEFINITION. The statements for the provers. Each docstring names the rules of spec/ it formalises; a
clause that rests on a choice of the model names its log entry. -/

open Sys2Proof Sys2Proof.Machine Host

/-! ### Encodings -/

/-- Words written out from the spec's encodings (spec/30_encoding.md R100, R101, R107). -/
def Obligations.SampleWordsDecode : Prop :=
  decode (.code [0b00000111#8]) = .ok (.lit 0x07#8) ∧
  decode (.code [0b10111111#8]) = .ok (.lit 0xBF#8) ∧
  decode (.code [0b11000011#8, 0b00000111#8]) = .ok (.run 3#6 0x07#8) ∧
  decode (.code [0b11111111#8, 0b11000101#8]) = .ok (.run 63#6 0xC5#8) ∧
  decode (.command 0x00000000#32) = .ok .nop ∧
  decode (.command 0x00000001#32) = .ok .decode ∧
  decode (.command 0x00000004#32) = .ok .loadTruecolor ∧
  decode (.command 0x00000005#32) = .ok .readIndex ∧
  decode (.command 0x00000011#32) = .ok .rleEncode ∧
  decode (.command 0x00000023#32) = .ok .writeBmpa

/-- Every well-formed instruction is what its encoding decodes to, and a code's bytes decode to it and
nothing more, whatever follows them (R100 to R102, R107). -/
def Obligations.EncodingRoundTrip : Prop :=
  ∀ i : Instr, i.WellFormed →
    decode (encode i) = .ok i ∧
    (isCodeForm i → ∀ rest : List Byte, decodeCode (codeBytes i ++ rest) = .ok (i, rest))

/-- What the code forms are told apart by (R100 to R103): a byte below 0xC0 is a LIT of one byte, any
other byte is a RUN of two with its count in bits [5:0]; no byte value is refused. -/
def Obligations.CodeFormFromFirstByte : Prop :=
  ∀ (b : Byte) (rest : List Byte),
    (b.toNat < 0xC0 → decodeCode (b :: rest) = .ok (.lit b, rest)) ∧
    (0xC0 ≤ b.toNat → ∀ v : Byte,
      decodeCode (b :: v :: rest) = .ok (.run (BitVec.ofNat 6 (b.toNat - 0xC0)) v, rest) ∧
      encode (.run (BitVec.ofNat 6 (b.toNat - 0xC0)) v) = .code [b, v])

/-- Command words decode by an exact match of all 32 bits: bits [31:8] must be zero (R106), bits [7:0]
are in the table (R109), and a word that decodes is its instruction's own. -/
def Obligations.CommandWordExactMatch : Prop :=
  ∀ w : Word,
    (256 ≤ w.toNat → decodeCommand w = .error .mustBeZero) ∧
    (∀ i : Instr, decodeCommand w = .ok i ↔ encode i = .command w) ∧
    (w.toNat < 256 → (∀ i : Instr, encode i ≠ .command w) →
      decodeCommand w = .error (.unknownOpcode (commandOpcode w)))

/-- The pseudo-instructions (R113): `REP n, v` assembles to what the encoder emits for n copies of v with no
chunk limit, and `BYTE v` to what it emits for one. -/
def Obligations.RepIsTheEncoding : Prop :=
  ∀ (n c : Nat) (v : Byte), 1 ≤ n → n ≤ c →
    (expandRep n v).flatMap codeBytes = rleEncode (List.replicate n v) c ∧
    codeBytes (expandByte v) = rleEncode [v] c

/-! ### Steps -/

/-- A step runs an accepted command: with the host's turn passed on (or its queue empty), a step from
`accepted op` is `exec` of the instruction the opcode decodes to (spec/45_commands.md R350); an
unassigned opcode ends with UNKNOWN_OPCODE and nothing consumed or appended
(spec/30_encoding.md R107). -/
def Obligations.StepRunsAcceptedCommand : Prop :=
  ∀ (s : State) (op : Byte) (rest : List HostOp), s.phase = .accepted op →
    (s.host = [] ∧ rest = [] ∨ s.host = .grant .command :: rest) →
    (∀ i : Instr, decodeCommand (op.setWidth 32) = .ok i → step s = exec i { s with host := rest }) ∧
    (decodeCommand (op.setWidth 32) = .error (.unknownOpcode op) →
      ∃ t, step s = .next t ∧ Ended t (Status.failure .unknownOpcode) 0 [] ∧
        t.status.toWord = 0x00000146#32 ∧ KeepsAll { s with host := rest } t)

/-- A step runs the code at the input cursor of a running body (spec/41_rle_decoder.md R183): the code's
bytes are consumed, its meaning runs, and the engine goes on to its next boundary (`afterCode`). One code
a step is the model's choice (log 9). -/
def Obligations.StepRunsFetchedCode : Prop :=
  ∀ (s : State) (e : Engine) (i : Instr) (left : List Byte) (rest : List HostOp),
    s.phase = .body e → s.host = .grant .code :: rest → s.ports.draws = [] →
    decodeCode s.ports.input = .ok (i, left) →
    step s =
      (match exec i { s with
          host := rest
          ports := { s.ports with
            input := left, cursor := s.ports.cursor + (s.ports.input.length - left.length) } } with
        | .next t => afterCode t
        | .fault why => .fault why
        | .refused why => .refused why)

/-- Running a body code by code comes to what running the command whole comes to (R350 lets a model take
the whole command as one step; the two grains are the model's choice, log 9). -/
def Obligations.CodeGrainAgreesWithWholeCommand : Prop :=
  ∀ (s : State) (op : Byte) (i : Instr), s.phase = .accepted op → decodeOpcode op = some i →
    ∃ n, codeMoves n s = exec i s

/-! ### Code forms -/

/-- LIT (R180): `rem <- 1; val <- b`, then one copy at x; x moves by one, nothing else changes. -/
def Obligations.LitWritesOneCopy : Prop :=
  ∀ (s : State) (e : Engine) (v : Byte), s.phase = .body e → e.x < e.lineLen →
    e.lineLen ≤ lineBound → s.line.length = e.lineLen →
    exec (.lit v) s =
      .next { s with
        phase := .body { e with x := e.x + 1, rem := 0, val := v }
        line := s.line.set e.x v }

/-- RUN (R181, R188): `rem <- n; val <- v`, then as many copies as are left of the run and of the
scanline; positions before x and after the copies keep their value, nothing else changes. -/
def Obligations.RunWritesCopies : Prop :=
  ∀ (s : State) (e : Engine) (n : BitVec 6) (v : Byte), s.phase = .body e → e.x < e.lineLen →
    e.lineLen ≤ lineBound → s.line.length = e.lineLen →
    ∃ out : List Byte,
      exec (.run n v) s =
        .next { s with
          phase := .body { e with
            x := e.x + min n.toNat (e.lineLen - e.x)
            rem := n.toNat - min n.toNat (e.lineLen - e.x)
            val := v }
          line := out } ∧
      out.length = e.lineLen ∧
      (∀ j, e.x ≤ j → j < e.x + min n.toNat (e.lineLen - e.x) → out[j]? = some v) ∧
      (∀ j, j < e.x ∨ e.x + min n.toNat (e.lineLen - e.x) ≤ j → out[j]? = s.line[j]?)

/-- A RUN with n = 0 consumes its two bytes, writes nothing, and the engine is at the same position for
the next code (R187). -/
def Obligations.ZeroRunIsTwoByteNop : Prop :=
  ∀ (s : State) (e : Engine) (v : Byte) (left : List Byte) (rest : List HostOp),
    State.Inv s → s.phase = .body e → s.host = .grant .code :: rest → s.ports.draws = [] →
    s.ports.input = 0xC0#8 :: v :: left →
    step s = .next { s with
      host := rest
      phase := .body { e with val := v }
      ports := { s.ports with input := left, cursor := s.ports.cursor + 2 } }

/-- Where the two levels stop. Outside a running body LIT and RUN are refused by name, which is the model's
choice (log 18). A command that exec begins while another is in its body, or waits for a port that never
answers, faults: R445 speaks of a CMD write only, and that the fault covers this too is the model's reading
(log 30). -/
def Obligations.LevelsDoNotMix : Prop :=
  (∀ (s : State) (v : Byte) (n : BitVec 6), (∀ e, s.phase ≠ .body e) →
    exec (.lit v) s = .refused .noBodyRunning ∧ exec (.run n v) s = .refused .noBodyRunning) ∧
  (∀ (s : State) (i : Instr), ¬ isCodeForm i → ¬ s.Ready → exec i s = .fault .cmdWhileBusy)

/-! ### Commands without data -/

/-- NOP (R353): success, nothing consumed, nothing appended, nothing else changed. -/
def Obligations.NopSucceeds : Prop :=
  ∀ s : State, s.Ready →
    ∃ t, exec .nop s = .next t ∧ Ended t Status.success 0 [] ∧ t.status.toWord = 0x00000002#32 ∧
      KeepsAll s t

/-- CLEAR (R361): no Image and its registers zero; with no Image before, it changes nothing; a writer after
it ends with NO_IMAGE. Of the buffers' contents nothing is said. -/
def Obligations.ClearDropsTheImage : Prop :=
  ∀ s : State, s.Ready →
    ∃ t, exec .clear s = .next t ∧ Ended t Status.success 0 [] ∧
      t.image.repr = .absent ∧ t.image.width = 0#17 ∧ t.image.height = 0#17 ∧ t.image.bpl = 0#16 ∧
      KeepsResults s t ∧ KeepsOperands s t ∧
      (s.image.repr = .absent → Image.Ok s.cfg s.image → t.image = s.image) ∧
      ∃ u, exec .writeBmp t = .next u ∧ Ended u (Status.failure .noImage) 0 [] ∧
        u.status.toWord = 0x00000246#32

/-! ### The header -/

/-- Which byte of the stream is which field of its header (R143), and W and H from the fields (R147). PROBE
of an accepted header (R355): 68 bytes consumed, RES0 to RES2 hold the geometry, the Image is unchanged. A
header is accepted when it passes R148 and R149 and its height is in R16's range; one that passes them and is
taller ends DECODE and PROBE with TOO_LARGE, which is the model's choice of error (log 14). -/
def Obligations.ProbeReportsGeometry : Prop :=
  (∀ (s : State) (h : Header) (b : Nat → Byte), 68 ≤ s.ports.input.length → h = streamHeader s →
    b = (fun k => s.ports.input.getD k 0#8) →
    h.bpp = b 3 ∧ h.planes = b 65 ∧
    h.startX.toNat = (b 4).toNat + 256 * (b 5).toNat ∧ h.startY.toNat = (b 6).toNat + 256 * (b 7).toNat ∧
    h.endX.toNat = (b 8).toNat + 256 * (b 9).toNat ∧ h.endY.toNat = (b 10).toNat + 256 * (b 11).toNat ∧
    h.bpl.toNat = (b 66).toNat + 256 * (b 67).toNat ∧
    h.fb.length = 16 ∧ (∀ i, i < 16 → h.fb[i]? = some ⟨b (16 + 3 * i), b (17 + 3 * i), b (18 + 3 * i)⟩) ∧
    h.width = (h.endX.toNat : Int) - h.startX.toNat + 1 ∧
    h.height = (h.endY.toNat : Int) - h.startY.toNat + 1) ∧
  ∀ s : State, s.Ready → s.PortsAnswer → 68 ≤ s.ports.input.length →
    ((streamHeader s).Accepted s.cfg →
      ∃ t, exec .probe s = .next t ∧ Ended t Status.success 68 [] ∧
        t.res0 = BitVec.ofInt 32 (streamHeader s).width ∧
        t.res1 = BitVec.ofInt 32 (streamHeader s).height ∧
        t.res2.toWord = 0#8 ++ (streamHeader s).planes ++ (streamHeader s).bpl ∧
        t.image = s.image ∧ KeepsOperands s t) ∧
    ((streamHeader s).Accepted s.cfg ↔
      headerError s.cfg (streamHeader s) = none ∧ (streamHeader s).height ≤ 65535) ∧
    (headerError s.cfg (streamHeader s) = none → 65535 < (streamHeader s).height →
      ∀ i : Instr, i = .decode ∨ i = .probe →
        ∃ t, exec i s = .next t ∧ Ended t (Status.failure .tooLarge) 68 [] ∧ KeepsAll s t)

/-- A stream under 68 bytes is MalformedStructure SHORT_HEADER in DECODE and PROBE, whatever its bytes
(R146). -/
def Obligations.ShortHeaderAlwaysFails : Prop :=
  ∀ (s : State) (i : Instr), i = .decode ∨ i = .probe → s.Ready → s.PortsAnswer →
    s.ports.input.length < 68 →
    ∃ t, exec i s = .next t ∧
      Ended t (Status.failure .shortHeader) s.ports.input.length [] ∧
      t.status.toWord = 0x00000126#32 ∧ KeepsAll s t

/-- The first failing header check decides the error, before any byte after offset 67 is consumed
(R148 to R150). -/
def Obligations.HeaderChecksInOrder : Prop :=
  ∀ (s : State) (i : Instr) (e : CmdError), i = .decode ∨ i = .probe → s.Ready → s.PortsAnswer →
    68 ≤ s.ports.input.length → headerError s.cfg (streamHeader s) = some e →
    ∃ t, exec i s = .next t ∧ Ended t (Status.failure e) 68 [] ∧ KeepsAll s t

/-! ### DECODE -/

/-- The degenerate path (R151, R152): a stream of 68 to 127 bytes gives an INDEXED Image of sentinel
indices under the fallback palette, whatever the plane count. -/
def Obligations.DecodeDegenerateImage : Prop :=
  ∀ s : State, s.Ready → s.PortsAnswer → 68 ≤ s.ports.input.length → s.ports.input.length < 128 →
    (streamHeader s).Accepted s.cfg →
    ∃ t, exec .decode s = .next t ∧ Ended t Status.success s.ports.input.length [] ∧
      t.image.repr = .indexed ∧ (t.image.w : Int) = (streamHeader s).width ∧
      (t.image.h : Int) = (streamHeader s).height ∧ t.image.bpl = (streamHeader s).bpl ∧
      t.image.pal = fallbackPalette (streamHeader s).fb ∧
      t.image.idx = List.replicate (t.image.w * t.image.h) 0xFF#8 ∧
      t.image.pix = List.replicate (t.image.w * t.image.h) ⟨0#8, 0#8, 0#8, 255#8⟩ ∧
      t.res0.toNat = t.image.w ∧ t.res1.toNat = t.image.h ∧
      t.res2 = ⟨(streamHeader s).bpl, (streamHeader s).planes, true, false, false⟩ ∧
      KeepsOperands s t

/-- DECODE of a 1-plane stream (R354, R184, R190, R191, R221 to R227): the body as R184's loops give it,
the first W columns of each scanline as IDX, the palette, and PIX by lookup. -/
def Obligations.DecodeIndexedImage : Prop :=
  ∀ s : State, s.Ready → s.PortsAnswer → 128 ≤ s.ports.input.length →
    (streamHeader s).Accepted s.cfg → (streamHeader s).planes = 1#8 →
    ∀ (h : Header) (body : List (List Byte) × Bool × List Byte) (pal : List Sample × Bool × List Byte),
    h = streamHeader s →
    body = refDecodeBody s.cfg.lineRunPolicy h.bpl.toNat h.height.toNat 0xFF#8 (s.ports.input.drop 128) →
    pal = refPalette h.fb body.2.2 →
    ∃ t, exec .decode s = .next t ∧
      Ended t Status.success (s.ports.input.length - pal.2.2.length) [] ∧
      t.image.repr = .indexed ∧ (t.image.w : Int) = h.width ∧ (t.image.h : Int) = h.height ∧
      t.image.bpl = h.bpl ∧ t.image.pal = pal.1 ∧
      t.image.idx = body.1.flatMap (fun line => line.take t.image.w) ∧
      t.image.pix = t.image.idx.map (fun i => pal.1.getD i.toNat Sample.zero) ∧
      t.res0.toNat = t.image.w ∧ t.res1.toNat = t.image.h ∧
      t.res2 = ⟨h.bpl, 1#8, false, pal.2.1, body.2.1⟩ ∧ KeepsOperands s t

/-- DECODE of a 3-plane stream (R354, R184, R229, R231): the body as R184's loops give it with the fill
`PLANE_FILL` (a free value, log 2), deinterleaved, alpha 255; no palette is read. -/
def Obligations.DecodePlanarImage : Prop :=
  ∀ s : State, s.Ready → s.PortsAnswer → 128 ≤ s.ports.input.length →
    (streamHeader s).Accepted s.cfg → (streamHeader s).planes = 3#8 →
    ∀ (h : Header) (body : List (List Byte) × Bool × List Byte),
    h = streamHeader s →
    body = refDecodeBody s.cfg.lineRunPolicy (3 * h.bpl.toNat) h.height.toNat
      (Config.planeFill s.freeIx) (s.ports.input.drop 128) →
    ∃ t, exec .decode s = .next t ∧
      Ended t Status.success (s.ports.input.length - body.2.2.length) [] ∧
      t.image.repr = .truecolor ∧ (t.image.w : Int) = h.width ∧ (t.image.h : Int) = h.height ∧
      t.image.bpl = h.bpl ∧
      t.image.pix = body.1.flatMap (fun line => (List.range t.image.w).map fun x =>
        ⟨line.getD x 0#8, line.getD (h.bpl.toNat + x) 0#8, line.getD (2 * h.bpl.toNat + x) 0#8, 255#8⟩) ∧
      t.res0.toNat = t.image.w ∧ t.res1.toNat = t.image.h ∧
      t.res2 = ⟨h.bpl, 3#8, false, false, body.2.1⟩ ∧ KeepsOperands s t

/-- The fallback palette (R224): the table's 16 colors, then black; alpha 0 for entry 0 alone. -/
def Obligations.FallbackPaletteEntries : Prop :=
  ∀ (fb : List Rgb), fb.length = 16 →
    (fallbackPalette fb).length = 256 ∧
    ∀ i, i < 256 →
      (fallbackPalette fb)[i]? =
        some ⟨if i < 16 then (fb.getD i ⟨0#8, 0#8, 0#8⟩).r else 0#8,
              if i < 16 then (fb.getD i ⟨0#8, 0#8, 0#8⟩).g else 0#8,
              if i < 16 then (fb.getD i ⟨0#8, 0#8, 0#8⟩).b else 0#8,
              if i = 0 then 0#8 else 255#8⟩

/-- The final alpha forcing (R225): entry 0 gets alpha 0, every other entry 255, and no color channel
changes; and every INDEXED Image an instruction builds has it. -/
def Obligations.AlphaForcing : Prop :=
  (∀ (pal : List Sample) (i : Nat) (p : Sample), pal[i]? = some p →
    (forceAlpha pal)[i]? = some { p with a := if i = 0 then 0#8 else 255#8 } ∧
    (forceAlpha pal).length = pal.length) ∧
  (∀ (s t : State) (i : Instr), exec i s = .next t → t.image ≠ s.image → t.image.repr = .indexed →
    t.image.pal.length = 256 ∧ alphaForced t.image.pal)

/-! ### Loading -/

/-- LOAD_INDEXED (R356): the palette from the first 768 bytes with the alpha forced, IDX from the next
W × H, PIX by lookup; the bytes after them are not read. -/
def Obligations.LoadIndexedBuildsImage : Prop :=
  ∀ s : State, s.Ready → s.PortsAnswer → LoadAccepted s →
    768 + s.pWidth.toNat * s.pHeight.toNat ≤ s.ports.input.length →
    ∃ t, exec .loadIndexed s = .next t ∧
      Ended t Status.success (768 + s.pWidth.toNat * s.pHeight.toNat) [] ∧
      t.image.repr = .indexed ∧ t.image.width = s.pWidth ∧ t.image.height = s.pHeight ∧
      t.image.bpl = s.pBpl ∧ t.image.pal.length = 256 ∧
      (∀ i, i < 256 → t.image.pal[i]? =
        some ⟨s.ports.input.getD (3 * i) 0#8, s.ports.input.getD (3 * i + 1) 0#8,
              s.ports.input.getD (3 * i + 2) 0#8, if i = 0 then 0#8 else 255#8⟩) ∧
      t.image.idx = (s.ports.input.drop 768).take (s.pWidth.toNat * s.pHeight.toNat) ∧
      t.image.pix = t.image.idx.map (fun i => t.image.pal.getD i.toNat Sample.zero) ∧
      KeepsResults s t ∧ KeepsOperands s t

/-- LOAD_TRUECOLOR (R357): four bytes a pixel, alpha as supplied. -/
def Obligations.LoadTruecolorBuildsImage : Prop :=
  ∀ s : State, s.Ready → s.PortsAnswer → LoadAccepted s →
    4 * (s.pWidth.toNat * s.pHeight.toNat) ≤ s.ports.input.length →
    ∃ t, exec .loadTruecolor s = .next t ∧
      Ended t Status.success (4 * (s.pWidth.toNat * s.pHeight.toNat)) [] ∧
      t.image.repr = .truecolor ∧ t.image.width = s.pWidth ∧ t.image.height = s.pHeight ∧
      t.image.bpl = s.pBpl ∧ t.image.pix.length = s.pWidth.toNat * s.pHeight.toNat ∧
      (∀ i, i < s.pWidth.toNat * s.pHeight.toNat → t.image.pix[i]? =
        some ⟨s.ports.input.getD (4 * i) 0#8, s.ports.input.getD (4 * i + 1) 0#8,
              s.ports.input.getD (4 * i + 2) 0#8, s.ports.input.getD (4 * i + 3) 0#8⟩) ∧
      KeepsResults s t ∧ KeepsOperands s t

/-- Load validation (R368): the first failing check decides the error, before any input request. -/
def Obligations.LoadValidationInOrder : Prop :=
  ∀ (s : State) (i : Instr) (e : CmdError), i = .loadIndexed ∨ i = .loadTruecolor → s.Ready →
    loadError s = some e →
    ∃ t, exec i s = .next t ∧ Ended t (Status.failure e) 0 [] ∧ KeepsAll s t

/-- Host data shorter than the operands ask is MalformedStructure SHORT_DATA, the Image unchanged
(R356, R357, R363, R402); what remained is consumed (R73). A LOAD that passes R368 and has its data, but
whose height IMG_HEIGHT cannot hold (R40), commits nothing and ends with TOO_LARGE, which is the model's
choice of error and of its place (log 14). -/
def Obligations.ShortDataFails : Prop :=
  ∀ s : State, s.Ready → s.PortsAnswer →
    (loadError s = none → s.ports.input.length < 768 + s.pWidth.toNat * s.pHeight.toNat →
      ∃ t, exec .loadIndexed s = .next t ∧
        Ended t (Status.failure .shortData) s.ports.input.length [] ∧ KeepsAll s t) ∧
    (loadError s = none → s.ports.input.length < 4 * (s.pWidth.toNat * s.pHeight.toNat) →
      ∃ t, exec .loadTruecolor s = .next t ∧
        Ended t (Status.failure .shortData) s.ports.input.length [] ∧ KeepsAll s t) ∧
    (1 ≤ s.arg0.toNat → s.ports.input.length < s.arg1.toNat →
      ∃ t, exec .rleEncode s = .next t ∧
        Ended t (Status.failure .shortData) s.ports.input.length [] ∧ KeepsAll s t) ∧
    (LoadAccepted s ↔ loadError s = none ∧ s.pHeight.toNat ≤ 65535) ∧
    (loadError s = none → 65535 < s.pHeight.toNat →
      (768 + s.pWidth.toNat * s.pHeight.toNat ≤ s.ports.input.length →
        ∃ t, exec .loadIndexed s = .next t ∧
          Ended t (Status.failure .tooLarge) (768 + s.pWidth.toNat * s.pHeight.toNat) [] ∧ KeepsAll s t) ∧
      (4 * (s.pWidth.toNat * s.pHeight.toNat) ≤ s.ports.input.length →
        ∃ t, exec .loadTruecolor s = .next t ∧
          Ended t (Status.failure .tooLarge) (4 * (s.pWidth.toNat * s.pHeight.toNat)) [] ∧ KeepsAll s t))

/-! ### The raw run-length commands -/

/-- RLE_DECODE (R362): the scanlines of R184's loops, one after another. -/
def Obligations.RleDecodeOutputsScanlines : Prop :=
  ∀ s : State, s.Ready → s.PortsAnswer → 1 ≤ s.arg0.toNat → s.arg0.toNat ≤ 3 * 65535 →
    ∀ body : List (List Byte) × Bool × List Byte,
    body = refDecodeBody s.cfg.lineRunPolicy s.arg0.toNat s.arg1.toNat s.arg2 s.ports.input →
    ∃ t, exec .rleDecode s = .next t ∧
      Ended t Status.success (s.ports.input.length - body.2.2.length) body.1.flatten ∧
      KeepsAll s t

/-- RLE_ENCODE (R363): the encoding of the first N bytes in chunks of C. -/
def Obligations.RleEncodeOutputsCodes : Prop :=
  ∀ s : State, s.Ready → s.PortsAnswer → 1 ≤ s.arg0.toNat →
    s.arg1.toNat ≤ s.ports.input.length →
    ∃ t, exec .rleEncode s = .next t ∧
      Ended t Status.success s.arg1.toNat
        (rleEncode (s.ports.input.take s.arg1.toNat) s.arg0.toNat) ∧
      KeepsAll s t

/-- The encoder (R262 to R264): the input falls into runs, each the longest that the bytes left, 63 and the
chunk allow, and each run is written as R263 says. So its output is a canonical stream (R105, R265 to
R267): codes that stand for the input, no LIT of a marker, every RUN of 1 to 63 and below 3 only for a
marker, and no code across a chunk boundary. -/
def Obligations.EncoderOutputIsCanonical : Prop :=
  ∀ (d : List Byte) (c : Nat), 1 ≤ c →
    (∃ runs : List (Nat × Byte),
      d = runs.flatMap (fun r => List.replicate r.1 r.2) ∧
      rleEncode d c = runs.flatMap (fun r =>
        if r.1 ≤ 2 ∧ isMarker r.2 = false then List.replicate r.1 r.2
        else [0xC0#8 ||| BitVec.ofNat 8 r.1, r.2]) ∧
      ∀ (before after : List (Nat × Byte)) (len : Nat) (v : Byte) (i limit : Nat),
        runs = before ++ (len, v) :: after → i = (before.map Prod.fst).sum →
        limit = min (d.length - i) (min 63 (c - i % c)) →
        1 ≤ len ∧ len ≤ limit ∧ (len < limit → d[i + len]? ≠ some v)) ∧
    ∃ codes : List Instr,
      rleEncode d c = codes.flatMap codeBytes ∧ codesExpand codes = d ∧
      (∀ i ∈ codes, isCodeForm i ∧ i.WellFormed) ∧
      (∀ (n : BitVec 6) (v : Byte), .run n v ∈ codes →
        1 ≤ n.toNat ∧ (n.toNat ≤ 2 → isMarker v = true)) ∧
      (∀ (before after : List Instr) (i : Instr), codes = before ++ i :: after →
        (codesExpand before).length / c = ((codesExpand before).length + codeCount i - 1) / c)

/-- The size of the encoder's output (R269): at most two bytes a byte of input; it is the bytes of well-formed
codes of one or two bytes that stand for the input, at least ceil(N / 63) of them; and two bytes a byte where
every byte is a marker and the chunks are single bytes. -/
def Obligations.EncoderOutputSize : Prop :=
  ∀ (d : List Byte) (c : Nat), 1 ≤ c →
    (rleEncode d c).length ≤ 2 * d.length ∧
    (∃ codes : List Instr, rleEncode d c = codes.flatMap codeBytes ∧ codesExpand codes = d ∧
      d.length ≤ 63 * codes.length ∧
      ∀ i ∈ codes, i.WellFormed ∧ ((codeBytes i).length = 1 ∨ (codeBytes i).length = 2)) ∧
    ((∀ v ∈ d, isMarker v = true) → c = 1 → (rleEncode d c).length = 2 * d.length)

/-- Decoding what was encoded (R268): RLE_DECODE of the encoder's output gives the input back under both
policies when the chunk divides the scanline, and under `carry` for every chunk. -/
def Obligations.DecodeOfEncodeIsIdentity : Prop :=
  ∀ (s : State) (d : List Byte) (c : Nat), s.Ready → s.PortsAnswer → 1 ≤ s.arg0.toNat →
    s.arg0.toNat ≤ 3 * 65535 → d.length = s.arg0.toNat * s.arg1.toNat → 1 ≤ c →
    (s.arg0.toNat % c = 0 ∨ s.cfg.lineRunPolicy = .carry) → s.ports.input = rleEncode d c →
    ∃ t, exec .rleDecode s = .next t ∧ Ended t Status.success (rleEncode d c).length d ∧ KeepsAll s t

/-! ### Reading the Image -/

/-- READ_INDEX (R358). -/
def Obligations.ReadIndexOutputsIndices : Prop :=
  ∀ s : State, s.Ready → s.PortsAnswer → s.image.repr = .indexed → Memory.wf s.image →
    ∃ t, exec .readIndex s = .next t ∧ Ended t Status.success 0 s.image.idx ∧
      t.ports.output.length = s.image.w * s.image.h ∧ KeepsAll s t

/-- READ_PALETTE (R359): 256 entries of R, G, B, A. -/
def Obligations.ReadPaletteOutputsEntries : Prop :=
  ∀ s : State, s.Ready → s.PortsAnswer → s.image.repr = .indexed → Memory.wf s.image →
    ∃ t, exec .readPalette s = .next t ∧ Ended t Status.success 0 t.ports.output ∧
      t.ports.output.length = 1024 ∧
      (∀ (i : Nat) (p : Sample), s.image.pal[i]? = some p →
        (t.ports.output.drop (4 * i)).take 4 = [p.r, p.g, p.b, p.a]) ∧
      KeepsAll s t

/-- READ_PIXELS (R360): W × H pixels of R, G, B, A, under either representation. -/
def Obligations.ReadPixelsOutputsPixels : Prop :=
  ∀ s : State, s.Ready → s.PortsAnswer → s.image.repr ≠ .absent → Memory.wf s.image →
    ∃ t, exec .readPixels s = .next t ∧ Ended t Status.success 0 t.ports.output ∧
      t.ports.output.length = 4 * (s.image.w * s.image.h) ∧
      (∀ (i : Nat) (p : Sample), s.image.pix[i]? = some p →
        (t.ports.output.drop (4 * i)).take 4 = [p.r, p.g, p.b, p.a]) ∧
      KeepsAll s t

/-- CommandError (R352, R404): a command that needs an Image without one, READ_INDEX and READ_PALETTE under
TRUECOLOR, and an operand out of range, end before any request. -/
def Obligations.CommandMisuseEndsAtOnce : Prop :=
  ∀ (s : State) (i : Instr), s.Ready →
    (i ∈ [.readPixels, .writePcx, .writeIco, .writeBmp, .writeBmpa, .readIndex, .readPalette] →
      s.image.repr = .absent →
      ∃ t, exec i s = .next t ∧ Ended t (Status.failure .noImage) 0 [] ∧ KeepsAll s t) ∧
    (i ∈ [.readIndex, .readPalette] → s.image.repr = .truecolor →
      ∃ t, exec i s = .next t ∧ Ended t (Status.failure .wrongRepr) 0 [] ∧ KeepsAll s t) ∧
    ((i = .rleDecode ∧ (s.arg0.toNat < 1 ∨ 3 * 65535 < s.arg0.toNat)) ∨
        (i = .rleEncode ∧ s.arg0.toNat < 1) →
      ∃ t, exec i s = .next t ∧ Ended t (Status.failure .badArg) 0 [] ∧ KeepsAll s t)

/-! ### Writers -/

/-- WRITE_PCX (R292, R157, R294, R295): the 128-byte header, the encoded body in chunks of one row, and for INDEXED the palette
trailer. -/
def Obligations.WritePcxOutputsFile : Prop :=
  ∀ s : State, s.Ready → s.PortsAnswer → s.image.repr ≠ .absent → Memory.wf s.image → s.cfg.Ok →
    ∃ (t : State) (header : List Byte), exec .writePcx s = .next t ∧
      Ended t Status.success 0
        (header ++ rleEncode (bodySeq s.cfg s.image)
            ((match s.cfg.pcxLinePad with
              | .unpadded => min s.image.w s.image.bplNat
              | .padToBpl => s.image.bplNat) * (if s.image.repr = .indexed then 1 else 3)) ++
          (if s.image.repr = .indexed then 0x0C#8 :: s.image.pal.flatMap (fun p => [p.r, p.g, p.b])
           else [])) ∧
      header.length = 128 ∧
      header.take 12 =
        [s.cfg.pcxHdrWrite.sig, s.cfg.pcxHdrWrite.ver, s.cfg.pcxHdrWrite.enc, 8#8, 0#8, 0#8, 0#8, 0#8]
          ++ toLE16 (s.image.w - 1) ++ toLE16 (s.image.h - 1) ∧
      (header.drop 12).take 4 = toLE16 s.cfg.pcxHdrWrite.hres.toNat ++ toLE16 s.cfg.pcxHdrWrite.vres.toNat ∧
      (header.drop 16).take 48 = s.cfg.pcxHdrWrite.fallback ∧
      (header.drop 64).take 4 =
        [s.cfg.pcxHdrWrite.reserved, if s.image.repr = .indexed then 1#8 else 3#8]
          ++ toLE16 s.image.bplNat ∧
      (header.drop 68).take 6 =
        toLE16 s.cfg.pcxHdrWrite.palinfo.toNat ++ toLE16 s.cfg.pcxHdrWrite.hscreen.toNat
          ++ toLE16 s.cfg.pcxHdrWrite.vscreen.toNat ∧
      header.drop 74 = s.cfg.pcxHdrWrite.filler ∧
      KeepsAll s t

/-- The body sequence (R293): rows top-down, one plane segment of indices or three of channels, each
followed under `pad_to_bpl` by BPL − W zeros. -/
def Obligations.BodySequenceLayout : Prop :=
  ∀ (cfg : Config) (img : Image) (seg : Nat), img.repr ≠ .absent → Memory.wf img → img.w ≤ img.bplNat →
    seg = (match cfg.pcxLinePad with | .unpadded => img.w | .padToBpl => img.bplNat) →
    (bodySeq cfg img).length = img.planeCount * seg * img.h ∧
    ∀ y x, y < img.h → x < seg →
      (img.repr = .indexed →
        (bodySeq cfg img)[y * seg + x]? = some (if x < img.w then img.idx.getD (y * img.w + x) 0#8 else 0#8)) ∧
      (img.repr = .truecolor →
        (bodySeq cfg img)[y * (3 * seg) + x]? =
          some (if x < img.w then (img.pix.getD (y * img.w + x) Sample.zero).r else 0#8) ∧
        (bodySeq cfg img)[y * (3 * seg) + seg + x]? =
          some (if x < img.w then (img.pix.getD (y * img.w + x) Sample.zero).g else 0#8) ∧
        (bodySeq cfg img)[y * (3 * seg) + 2 * seg + x]? =
          some (if x < img.w then (img.pix.getD (y * img.w + x) Sample.zero).b else 0#8))

/-- The icon size check (R297): a width or height over 256 fails before any request, so whatever the ports
answer, and 256 is accepted. -/
def Obligations.IconSizeLimit : Prop :=
  ∀ s : State, s.Ready → s.image.repr ≠ .absent → Memory.wf s.image →
    ((256 < s.image.w ∨ 256 < s.image.h) →
      ∃ t, exec .writeIco s = .next t ∧ Ended t (Status.failure .iconOversize) 0 [] ∧
        t.status.toWord = 0x00000636#32 ∧ KeepsAll s t) ∧
    (s.PortsAnswer → s.image.w ≤ 256 ∧ s.image.h ≤ 256 →
      ∃ t, exec .writeIco s = .next t ∧ Ended t Status.success 0 t.ports.output ∧ KeepsAll s t)

/-- WRITE_ICO in its 32-bit form (R298 to R306): INDEXED below 342 pixels and every TRUECOLOR Image. XOR
rows of BGRA, AND rows of one bit a pixel, most significant first, both bottom-up. -/
def Obligations.WriteIcoTruecolorForm : Prop :=
  ∀ (s : State) (w h stride xor and : Nat), s.Ready → s.PortsAnswer → Memory.wf s.image →
    (s.image.repr = .indexed ∧ s.image.w * s.image.h < 342 ∨ s.image.repr = .truecolor) →
    s.image.w ≤ 256 → s.image.h ≤ 256 →
    w = s.image.w → h = s.image.h → stride = 4 * ((w + 31) / 32) → xor = h * (4 * w) → and = h * stride →
    ∃ t, exec .writeIco s = .next t ∧ Ended t Status.success 0 t.ports.output ∧
      t.ports.output.length = 22 + (40 + xor + and) ∧
      t.ports.output.take 62 =
        [0#8, 0#8, 1#8, 0#8, 1#8, 0#8] ++
        [BitVec.ofNat 8 w, BitVec.ofNat 8 h, 0#8, 0#8, 1#8, 0#8, 32#8, 0#8] ++ toLE32 (40 + xor + and) ++
        [22#8, 0#8, 0#8, 0#8] ++
        [40#8, 0#8, 0#8, 0#8] ++ toLE32 w ++ toLE32 (2 * h) ++ [1#8, 0#8, 32#8, 0#8, 0#8, 0#8, 0#8, 0#8] ++
        toLE32 (xor + and) ++ List.replicate 16 0#8 ∧
      (∀ r x, r < h → x < w →
        (t.ports.output.drop (62 + r * (4 * w) + 4 * x)).take 4 =
          bgra (s.image.pix.getD ((h - 1 - r) * w + x) Sample.zero)) ∧
      (∀ r x, r < h → x < 8 * stride →
        (t.ports.output.getD (62 + xor + r * stride + x / 8) 0#8).getLsbD (7 - x % 8) =
          decide (x < w ∧ (s.image.pix.getD ((h - 1 - r) * w + x) Sample.zero).a = 0#8)) ∧
      KeepsAll s t

/-- WRITE_ICO in its 8-bit form (R298 to R306): an INDEXED Image of 342 pixels or more. A color table of
B, G, R, 0; XOR rows of indices padded to 4 bytes; AND bits where the index is 0. -/
def Obligations.WriteIcoIndexedForm : Prop :=
  ∀ (s : State) (w h stride stride8 xor and : Nat), s.Ready → s.PortsAnswer → Memory.wf s.image →
    s.image.repr = .indexed → 342 ≤ s.image.w * s.image.h → s.image.w ≤ 256 → s.image.h ≤ 256 →
    w = s.image.w → h = s.image.h → stride = 4 * ((w + 31) / 32) → stride8 = 4 * ((w + 3) / 4) →
    xor = h * stride8 → and = h * stride →
    ∃ t, exec .writeIco s = .next t ∧ Ended t Status.success 0 t.ports.output ∧
      t.ports.output.length = 22 + (40 + 1024 + xor + and) ∧
      t.ports.output.take 62 =
        [0#8, 0#8, 1#8, 0#8, 1#8, 0#8] ++
        [BitVec.ofNat 8 w, BitVec.ofNat 8 h, 0#8, 0#8, 1#8, 0#8, 8#8, 0#8] ++
        toLE32 (40 + 1024 + xor + and) ++ [22#8, 0#8, 0#8, 0#8] ++
        [40#8, 0#8, 0#8, 0#8] ++ toLE32 w ++ toLE32 (2 * h) ++ [1#8, 0#8, 8#8, 0#8, 0#8, 0#8, 0#8, 0#8] ++
        toLE32 (xor + and) ++ List.replicate 16 0#8 ∧
      (∀ (i : Nat) (p : Sample), s.image.pal[i]? = some p →
        (t.ports.output.drop (62 + 4 * i)).take 4 = [p.b, p.g, p.r, 0#8]) ∧
      (∀ r x, r < h → x < stride8 →
        t.ports.output.getD (1086 + r * stride8 + x) 0#8 =
          if x < w then s.image.idx.getD ((h - 1 - r) * w + x) 0#8 else 0#8) ∧
      (∀ r x, r < h → x < 8 * stride →
        (t.ports.output.getD (1086 + xor + r * stride + x / 8) 0#8).getLsbD (7 - x % 8) =
          decide (x < w ∧ s.image.idx.getD ((h - 1 - r) * w + x) 0#8 = 0#8)) ∧
      KeepsAll s t

/-- WRITE_BMP (R307 to R309): file header, info header, then the rows bottom-up as BGRA. -/
def Obligations.WriteBmpOutputsFile : Prop :=
  ∀ (s : State) (w h : Nat), s.Ready → s.PortsAnswer → s.image.repr ≠ .absent → Memory.wf s.image →
    w = s.image.w → h = s.image.h →
    ∃ t, exec .writeBmp s = .next t ∧ Ended t Status.success 0 t.ports.output ∧
      t.ports.output.length = 54 + 4 * w * h ∧
      t.ports.output.take 54 =
        [0x42#8, 0x4D#8] ++ toLE32 (54 + 4 * w * h) ++ [0#8, 0#8, 0#8, 0#8, 54#8, 0#8, 0#8, 0#8] ++
        [40#8, 0#8, 0#8, 0#8] ++ toLE32 w ++ toLE32 h ++ [1#8, 0#8, 32#8, 0#8, 0#8, 0#8, 0#8, 0#8] ++
        toLE32 (4 * w * h) ++ List.replicate 16 0#8 ∧
      (∀ r x, r < h → x < w →
        (t.ports.output.drop (54 + 4 * (r * w + x))).take 4 =
          bgra (s.image.pix.getD ((h - 1 - r) * w + x) Sample.zero)) ∧
      KeepsAll s t

/-- WRITE_BMPA (R310 to R312): the file header with offset 122, the 108-byte info header with the
bit-field masks, then the rows. -/
def Obligations.WriteBmpaOutputsFile : Prop :=
  ∀ (s : State) (w h : Nat), s.Ready → s.PortsAnswer → s.image.repr ≠ .absent → Memory.wf s.image →
    w = s.image.w → h = s.image.h →
    ∃ t, exec .writeBmpa s = .next t ∧ Ended t Status.success 0 t.ports.output ∧
      t.ports.output.length = 122 + 4 * w * h ∧
      t.ports.output.take 122 =
        [0x42#8, 0x4D#8] ++ toLE32 (122 + 4 * w * h) ++ [0#8, 0#8, 0#8, 0#8, 122#8, 0#8, 0#8, 0#8] ++
        [108#8, 0#8, 0#8, 0#8] ++ toLE32 w ++ toLE32 h ++ [1#8, 0#8, 32#8, 0#8, 3#8, 0#8, 0#8, 0#8] ++
        toLE32 (4 * w * h) ++ List.replicate 16 0#8 ++
        [0x00#8, 0x00#8, 0xFF#8, 0x00#8] ++ [0x00#8, 0xFF#8, 0x00#8, 0x00#8] ++
        [0xFF#8, 0x00#8, 0x00#8, 0x00#8] ++ [0x00#8, 0x00#8, 0x00#8, 0xFF#8] ++
        [0x42#8, 0x47#8, 0x52#8, 0x73#8] ++ List.replicate 48 0#8 ∧
      (∀ r x, r < h → x < w →
        (t.ports.output.drop (122 + 4 * (r * w + x))).take 4 =
          bgra (s.image.pix.getD ((h - 1 - r) * w + x) Sample.zero)) ∧
      KeepsAll s t

/-- The round trip of an INDEXED Image (R296 (a)): with BPL = W, or padded to BPL, DECODE of WRITE_PCX's
output gives the same Image. -/
def Obligations.IndexedRoundTrip : Prop :=
  ∀ s : State, s.Ready → s.PortsAnswer → s.cfg.Ok → Image.Ok s.cfg s.image →
    s.image.repr = .indexed →
    (s.image.bplNat = s.image.w ∨ s.cfg.pcxLinePad = .padToBpl) →
    ∃ t u, exec .writePcx s = .next t ∧
      exec .decode { t with ports := { t.ports with input := t.ports.output } } = .next u ∧
      u.status = Status.success ∧ u.image = s.image ∧ u.res2.explicitPal = true ∧
      u.ports.cursor = t.ports.output.length

/-- The round trip of a TRUECOLOR Image (R296 (b)): the same geometry and colors, alpha 255. -/
def Obligations.TruecolorRoundTrip : Prop :=
  ∀ s : State, s.Ready → s.PortsAnswer → s.cfg.Ok → Image.Ok s.cfg s.image →
    s.image.repr = .truecolor →
    (s.image.bplNat = s.image.w ∨ s.cfg.pcxLinePad = .padToBpl) →
    ∃ t u, exec .writePcx s = .next t ∧
      exec .decode { t with ports := { t.ports with input := t.ports.output } } = .next u ∧
      u.status = Status.success ∧ u.image.repr = .truecolor ∧ u.image.width = s.image.width ∧
      u.image.height = s.image.height ∧ u.image.bpl = s.image.bpl ∧
      u.image.pix = s.image.pix.map (fun p => { p with a := 255#8 }) ∧
      u.ports.cursor = t.ports.output.length

/-! ### Errors -/

/-- Error entry (R410): STATUS, IN_POS and OUT_LEN are written; the Image, RES0 to RES2 and the parameter
registers are unchanged, whichever command ends with the error. -/
def Obligations.ErrorEntryIsPrecise : Prop :=
  ∀ (s t : State) (i : Instr) (e : CmdError), ¬ isCodeForm i → exec i s = .next t →
    t.status.error = some e →
    Ended t (Status.failure e) t.ports.cursor t.ports.output ∧ KeepsAll s t

/-- Which command can end with which error (R406); an unassigned opcode ends with UNKNOWN_OPCODE alone. An
error that is no port failure leaves no output (R411). -/
def Obligations.ErrorsByCommand : Prop :=
  (∀ (s t : State) (i : Instr) (e : CmdError), ¬ isCodeForm i → exec i s = .next t →
    t.status.error = some e →
    e ∈ errorsOf i ∧ (e ≠ .accessIn → e ≠ .accessOut → t.ports.output = [])) ∧
  (∀ (s t : State), execUnknownOpcode s = .next t → t.status.error = some .unknownOpcode)

/-- Failing and silent ports (R76, R77, R82, R401, R411, R452), input and output, in a command's first
request, in DECODE's body and palette, and in RLE_DECODE's body. What a silent `Out.Write` has put in the
port is the model's choice (log 4). -/
def Obligations.PortFailures : Prop :=
  ∀ (s : State) (m : Nat) (ds : List PortDraw), s.Ready →
    -- READ_PALETTE's request k fails: the entries before it, and a first part of that one.
    (∀ (k : Nat) (p : Sample), s.image.repr = .indexed → Memory.wf s.image → s.image.pal[k]? = some p →
      s.ports.draws = List.replicate k .ok ++ .fail m :: ds →
      ∃ t, exec .readPalette s = .next t ∧
        Ended t (Status.failure .accessOut) 0
          ((s.image.pal.take k).flatMap (fun q => [q.r, q.g, q.b, q.a]) ++ [p.r, p.g, p.b, p.a].take m) ∧
        KeepsAll s t) ∧
    -- READ_INDEX's one request goes unanswered: BUSY, with a first part of its bytes in the port.
    (s.image.repr = .indexed → Memory.wf s.image → s.ports.draws = .never m :: ds →
      ∃ t, exec .readIndex s = .next t ∧ t.status.busy = true ∧ t.phase = .stalled ∧
        t.ports.output = s.image.idx.take m ∧ KeepsAll s t ∧ coreMove .command t = .next t) ∧
    -- PROBE's one request fails after any count of bytes up to 68, or goes unanswered.
    (s.ports.draws = .fail m :: ds →
      ∃ t, exec .probe s = .next t ∧ Ended t (Status.failure .accessIn) (min m 68) [] ∧ KeepsAll s t) ∧
    (s.ports.draws = .never m :: ds →
      ∃ t, exec .probe s = .next t ∧ t.status.busy = true ∧ t.phase = .stalled ∧ KeepsAll s t ∧
        coreMove .command t = .next t) ∧
    -- A read fails in DECODE's body, after j literals.
    (∀ j : Nat, (streamHeader s).Accepted s.cfg → 128 + j ≤ s.ports.input.length →
      j < (streamHeader s).planes.toNat * (streamHeader s).bpl.toNat * (streamHeader s).height.toNat →
      literal ((s.ports.input.drop 128).take j) →
      s.ports.draws = List.replicate (2 + j) .ok ++ .fail m :: ds →
      ∃ t, exec .decode s = .next t ∧
        Ended t (Status.failure .accessIn) (128 + j + min m 1) [] ∧ KeepsAll s t) ∧
    -- A read fails in DECODE's palette table, after a body of n literals, the marker and j table bytes.
    (∀ n j : Nat, (streamHeader s).Accepted s.cfg → (streamHeader s).planes = 1#8 →
      n = (streamHeader s).bpl.toNat * (streamHeader s).height.toNat →
      literal ((s.ports.input.drop 128).take n) → s.ports.input[128 + n]? = some 0x0C#8 →
      j < 768 → 129 + n + j ≤ s.ports.input.length →
      s.ports.draws = List.replicate (3 + n + j) .ok ++ .fail m :: ds →
      ∃ t, exec .decode s = .next t ∧
        Ended t (Status.failure .accessIn) (129 + n + j + min m 1) [] ∧ KeepsAll s t) ∧
    (1 ≤ s.arg0.toNat → s.arg0.toNat ≤ 3 * 65535 →
      -- A read fails in RLE_DECODE after n scanlines of literals and j more: the n scanlines stay.
      (∀ n j : Nat, n < s.arg1.toNat → j < s.arg0.toNat →
        n * s.arg0.toNat + j ≤ s.ports.input.length →
        literal (s.ports.input.take (n * s.arg0.toNat + j)) →
        s.ports.draws = List.replicate (n * (s.arg0.toNat + 1) + j) .ok ++ .fail m :: ds →
        ∃ t, exec .rleDecode s = .next t ∧
          Ended t (Status.failure .accessIn) (n * s.arg0.toNat + j + min m 1)
            (s.ports.input.take (n * s.arg0.toNat)) ∧
          KeepsAll s t) ∧
      -- On any stream: the scanlines finished before a failing read, or before a failing write and a
      -- first part of that one, are what is left.
      (∀ (t : State) (lines : List (List Byte)), exec .rleDecode s = .next t →
        lines = (refDecodeBody s.cfg.lineRunPolicy s.arg0.toNat s.arg1.toNat s.arg2 s.ports.input).1 →
        (t.status.error = some .accessIn →
          ∃ n, n < s.arg1.toNat ∧ t.ports.output = (lines.take n).flatten) ∧
        (t.status.error = some .accessOut →
          ∃ n k, n < s.arg1.toNat ∧
            t.ports.output = (lines.take n).flatten ++ (lines.getD n []).take k)))

/-! ### The whole machine -/

/-- Who writes what (R63, R50, R51): only DECODE, the LOAD commands and CLEAR replace the Image, each on
success; only PROBE and DECODE write RES0 to RES2; no instruction writes an operand register. -/
def Obligations.OnlyBuildersReplaceTheImage : Prop :=
  ∀ (s t : State) (i : Instr), exec i s = .next t →
    (t.image ≠ s.image →
      i ∈ [.decode, .loadIndexed, .loadTruecolor, .clear] ∧ t.status = Status.success) ∧
    (¬ KeepsResults s t → i ∈ [.probe, .decode] ∧ t.status = Status.success) ∧ KeepsOperands s t

/-- Every command ends (R452, R195): from every state in which it may begin and whose Image has buffers
of its size, with any port failures, it answers a next state in which no body is running; when every
request is answered, it is idle and DONE. -/
def Obligations.EveryCommandEnds : Prop :=
  ∀ (s : State) (i : Instr), ¬ isCodeForm i → s.Ready → Memory.wf s.image →
    ∃ t, exec i s = .next t ∧ (t.phase = .idle ∧ t.status.done = true ∨ t.phase = .stalled) ∧
      (s.NoSilence → t.phase = .idle)

/-- A command is a function of the Image, the registers, the input sequence and the failure draws (R85,
R90): what an earlier command left in STATUS, the cursor, the output sequence, HDR and LINE has no
effect. -/
def Obligations.CommandsIgnoreScratch : Prop :=
  ∀ (s : State) (i : Instr) (st : Status) (cursor : Nat) (out line : List Byte) (hdr : Header),
    ¬ isCodeForm i → s.phase = .idle → s.NoSilence →
    exec i { s with
      status := st, hdr := hdr, line := line,
      ports := { s.ports with cursor := cursor, output := out } } = exec i s

/-- The invariant holds after reset (R441, R54, R37). -/
def Obligations.ResetMeetsInvariant : Prop := State.reset.Inv

/-- Every step keeps the invariant and the configuration (R31): the Image's geometry, buffers and alpha
(R54, R56, R58), STATUS's legal combinations (R37), BUSY exactly while a command is in progress (R33),
IN_POS and OUT_LEN as the last command left them (R48, R49), and a running body inside its buffers (R184,
R78). -/
def Obligations.StepKeepsInvariant : Prop :=
  ∀ s t : State, s.Inv → step s = .next t → t.Inv ∧ t.cfg = s.cfg

/-- After reset (R34, R441): ID holds its constant and every other register reads 0; there is no Image and
no command in progress; cursor and output are empty. -/
def Obligations.ResetRegisterValues : Prop :=
  (∀ r : Reg, readReg State.reset r = if r = .id then 0x4D504358#32 else 0#32) ∧
  State.reset.image.repr = .absent ∧ State.reset.image.width = 0#17 ∧ State.reset.image.height = 0#17 ∧
  State.reset.image.bpl = 0#16 ∧ State.reset.phase = .idle ∧ State.reset.ports.cursor = 0 ∧
  State.reset.ports.output = []

/-- The platform reset (R440 to R443): the core is as after reset, whatever it was doing, and no buffer
can be read: every command that reads the Image ends with NO_IMAGE. -/
def Obligations.PlatformResetLeavesNothingReadable : Prop :=
  ∀ (s : State) (rest : List HostOp), s.host = .reset :: rest →
    ∃ t, step s = .next t ∧ (∀ r : Reg, readReg t r = readReg State.reset r) ∧ t.phase = .idle ∧
      t.ports.cursor = 0 ∧ t.ports.output = [] ∧ t.cfg = s.cfg ∧ t.host = rest ∧
      ∀ i : Instr,
        i ∈ [.readIndex, .readPalette, .readPixels, .writePcx, .writeIco, .writeBmp, .writeBmpa] →
        ∃ u, exec i t = .next u ∧ u.status = Status.failure .noImage ∧ u.ports.output = []

/-! ### The register file -/

/-- ID (R35): the constant, in every state, and writes are ignored. -/
def Obligations.IdIsHardwired : Prop :=
  ∀ (s : State) (v : Word),
    hostRead 32 0x00 s = .next { s with rdata := 0x4D504358#32 } ∧ hostWrite 32 0x00 v s = .next s

/-- The registers as the host reads and writes them (R34, R38 to R52). A write to an operand register while
not BUSY drops the bits the register lacks; it reads back what is left, and every other register reads as
before. While not BUSY a host read at each offset gives the register there, field by field, and changes
nothing. -/
def Obligations.OperandRegistersReadBack : Prop :=
  (∀ (s : State) (v : Word) (r : Reg) (bits : Nat), s.status.busy = false →
    (r, bits) ∈ [(Reg.pWidth, 17), (.pHeight, 17), (.pBpl, 16), (.arg0, 32), (.arg1, 32), (.arg2, 8)] →
    ∃ t, hostWrite 32 r.offset v s = .next t ∧ (readReg t r).toNat = v.toNat % 2 ^ bits ∧
      (∀ q : Reg, q ≠ r → readReg t q = readReg s q) ∧ t.image = s.image ∧ t.ports = s.ports ∧
      t.phase = s.phase ∧ t.host = s.host ∧ t.status = s.status) ∧
  (∀ s : State, s.status.busy = false →
    ∃ read : Nat → Word,
      (∀ offset ∈ [0x04, 0x0C, 0x10, 0x14, 0x18, 0x1C, 0x20, 0x24, 0x28, 0x2C, 0x30, 0x34, 0x38, 0x3C, 0x40, 0x44],
        hostRead 32 offset s = .next { s with rdata := read offset }) ∧
      read 0x04 = 0#32 ∧
      read 0x0C = (match s.image.repr with | .absent => 0#32 | .indexed => 1#32 | .truecolor => 2#32) ∧
      (read 0x10).toNat = s.image.width.toNat ∧ (read 0x14).toNat = s.image.height.toNat ∧
      (read 0x18).toNat = s.image.bpl.toNat ∧ (read 0x1C).toNat = s.pWidth.toNat ∧
      (read 0x20).toNat = s.pHeight.toNat ∧ (read 0x24).toNat = s.pBpl.toNat ∧
      read 0x28 = s.arg0 ∧ read 0x2C = s.arg1 ∧ (read 0x30).toNat = s.arg2.toNat ∧
      read 0x34 = s.inPos ∧ read 0x38 = s.outLen ∧ read 0x3C = s.res0 ∧ read 0x40 = s.res1 ∧
      (read 0x44).extractLsb' 0 16 = s.res2.bpl ∧ (read 0x44).extractLsb' 16 8 = s.res2.planes ∧
      (read 0x44).getLsbD 24 = s.res2.degenerate ∧ (read 0x44).getLsbD 25 = s.res2.explicitPal ∧
      (read 0x44).getLsbD 26 = s.res2.truncated ∧ (read 0x44).extractLsb' 27 5 = 0#5)

/-- Read-only and reserved offsets (R34, R53, R71): a write is ignored, a reserved offset reads 0, and the
block ends at 256 bytes. An access of another width, unaligned, or outside the block is refused. -/
def Obligations.OtherOffsetsIgnoreWrites : Prop :=
  (∀ (s : State) (offset : Nat) (v : Word), offset % 4 = 0 → offset ≤ 0xFC →
    (offset ∉ [0x04, 0x1C, 0x20, 0x24, 0x28, 0x2C, 0x30] → hostWrite 32 offset v s = .next s) ∧
    (0x48 ≤ offset → hostRead 32 offset s = .next { s with rdata := 0#32 })) ∧
  (∀ (s : State) (width offset : Nat) (v : Word), width ≠ 32 ∨ offset % 4 ≠ 0 ∨ 0xFC < offset →
    (∃ why, hostRead width offset s = .refused why) ∧ (∃ why, hostWrite width offset v s = .refused why))

/-- A CMD write while not BUSY (R36, R351): with bits [31:8] zero the prologue runs and the command is
accepted; otherwise nothing changes. -/
def Obligations.CmdWriteStartsACommand : Prop :=
  ∀ (s : State) (v : Word), s.status.busy = false →
    (v.toNat < 256 → hostWrite 32 0x04 v s = .next { s with
      status := ⟨true, false, none⟩
      phase := .accepted (BitVec.ofNat 8 v.toNat)
      ports := { s.ports with cursor := 0, output := [] } }) ∧
    (256 ≤ v.toNat → hostWrite 32 0x04 v s = .next s)

/-- The hazards (R445, R446): a CMD write and an operand write while BUSY are faults. That a CMD write with
bits [31:8] set, which R36 ignores, faults too while BUSY is the model's reading (log 13). -/
def Obligations.WritesWhileBusyFault : Prop :=
  ∀ (s : State) (v : Word), s.status.busy = true →
    hostWrite 32 0x04 v s = .fault .cmdWhileBusy ∧
    ∀ offset, offset ∈ [0x1C, 0x20, 0x24, 0x28, 0x2C, 0x30] →
      hostWrite 32 offset v s = .fault .operandWhileBusy

/-- The STATUS word (R37), bit by bit, as a read at offset 0x08 gives it in every state; and the code table
of R405, which has every error. -/
def Obligations.StatusWordFields : Prop :=
  (∀ s : State, ∃ w : Word, hostRead 32 0x08 s = .next { s with rdata := w } ∧
    w.getLsbD 0 = s.status.busy ∧ w.getLsbD 1 = s.status.done ∧ w.getLsbD 2 = s.status.error.isSome ∧
    w.extractLsb' 4 3 = (match s.status.error with | some e => e.kind | none => 0#3) ∧
    w.extractLsb' 8 8 = (match s.status.error with | some e => e.detail | none => 0#8) ∧
    w.getLsbD 3 = false ∧ w.getLsbD 7 = false ∧ w.extractLsb' 16 16 = 0#16) ∧
  ∀ e : CmdError, (e, e.kind.toNat, e.detail.toNat) ∈
    [(CmdError.accessIn, 1, 1), (.accessOut, 1, 2), (.shortHeader, 2, 1), (.shortData, 2, 2), (.bppNot8, 3, 1),
      (.planesInvalid, 3, 2), (.zeroArea, 3, 3), (.bplLtWidth, 3, 4), (.tooLarge, 3, 5), (.iconOversize, 3, 6),
      (.unknownOpcode, 4, 1), (.noImage, 4, 2), (.wrongRepr, 4, 3), (.badArg, 4, 4)]
end

