-- ==== Sys2Proof/Laws/State.lean ====
section
/-! SUPPORT. One lemma per field per update of the state, so that no proof unfolds a record update. -/

namespace Sys2Proof.Machine

/-! ### The prologue (spec/45_commands.md R351) -/

@[simp] theorem prologue_cfg (s : State) : (prologue s).cfg = s.cfg := rfl
@[simp] theorem prologue_status (s : State) : (prologue s).status = Status.running := rfl
@[simp] theorem prologue_image (s : State) : (prologue s).image = s.image := rfl
@[simp] theorem prologue_pWidth (s : State) : (prologue s).pWidth = s.pWidth := rfl
@[simp] theorem prologue_pHeight (s : State) : (prologue s).pHeight = s.pHeight := rfl
@[simp] theorem prologue_pBpl (s : State) : (prologue s).pBpl = s.pBpl := rfl
@[simp] theorem prologue_arg0 (s : State) : (prologue s).arg0 = s.arg0 := rfl
@[simp] theorem prologue_arg1 (s : State) : (prologue s).arg1 = s.arg1 := rfl
@[simp] theorem prologue_arg2 (s : State) : (prologue s).arg2 = s.arg2 := rfl
@[simp] theorem prologue_inPos (s : State) : (prologue s).inPos = s.inPos := rfl
@[simp] theorem prologue_outLen (s : State) : (prologue s).outLen = s.outLen := rfl
@[simp] theorem prologue_res0 (s : State) : (prologue s).res0 = s.res0 := rfl
@[simp] theorem prologue_res1 (s : State) : (prologue s).res1 = s.res1 := rfl
@[simp] theorem prologue_res2 (s : State) : (prologue s).res2 = s.res2 := rfl
@[simp] theorem prologue_ports (s : State) : (prologue s).ports = startPorts s.ports := rfl
@[simp] theorem prologue_hdr (s : State) : (prologue s).hdr = s.hdr := rfl
@[simp] theorem prologue_line (s : State) : (prologue s).line = s.line := rfl
@[simp] theorem prologue_phase (s : State) : (prologue s).phase = s.phase := rfl
@[simp] theorem prologue_host (s : State) : (prologue s).host = s.host := rfl
@[simp] theorem prologue_rdata (s : State) : (prologue s).rdata = s.rdata := rfl
@[simp] theorem prologue_collected (s : State) : (prologue s).collected = s.collected := rfl
@[simp] theorem prologue_freeIx (s : State) : (prologue s).freeIx = s.freeIx := rfl

/-! ### An accepted CMD write -/

@[simp] theorem acceptCommand_cfg (op : Byte) (s : State) : (acceptCommand op s).cfg = s.cfg := rfl
@[simp] theorem acceptCommand_status (op : Byte) (s : State) : (acceptCommand op s).status = Status.running :=
  rfl
@[simp] theorem acceptCommand_image (op : Byte) (s : State) : (acceptCommand op s).image = s.image := rfl
@[simp] theorem acceptCommand_pWidth (op : Byte) (s : State) : (acceptCommand op s).pWidth = s.pWidth := rfl
@[simp] theorem acceptCommand_pHeight (op : Byte) (s : State) : (acceptCommand op s).pHeight = s.pHeight :=
  rfl
@[simp] theorem acceptCommand_pBpl (op : Byte) (s : State) : (acceptCommand op s).pBpl = s.pBpl := rfl
@[simp] theorem acceptCommand_arg0 (op : Byte) (s : State) : (acceptCommand op s).arg0 = s.arg0 := rfl
@[simp] theorem acceptCommand_arg1 (op : Byte) (s : State) : (acceptCommand op s).arg1 = s.arg1 := rfl
@[simp] theorem acceptCommand_arg2 (op : Byte) (s : State) : (acceptCommand op s).arg2 = s.arg2 := rfl
@[simp] theorem acceptCommand_inPos (op : Byte) (s : State) : (acceptCommand op s).inPos = s.inPos := rfl
@[simp] theorem acceptCommand_outLen (op : Byte) (s : State) : (acceptCommand op s).outLen = s.outLen := rfl
@[simp] theorem acceptCommand_res0 (op : Byte) (s : State) : (acceptCommand op s).res0 = s.res0 := rfl
@[simp] theorem acceptCommand_res1 (op : Byte) (s : State) : (acceptCommand op s).res1 = s.res1 := rfl
@[simp] theorem acceptCommand_res2 (op : Byte) (s : State) : (acceptCommand op s).res2 = s.res2 := rfl
@[simp] theorem acceptCommand_ports (op : Byte) (s : State) : (acceptCommand op s).ports = startPorts s.ports :=
  rfl
@[simp] theorem acceptCommand_hdr (op : Byte) (s : State) : (acceptCommand op s).hdr = s.hdr := rfl
@[simp] theorem acceptCommand_line (op : Byte) (s : State) : (acceptCommand op s).line = s.line := rfl
@[simp] theorem acceptCommand_phase (op : Byte) (s : State) : (acceptCommand op s).phase = .accepted op := rfl
@[simp] theorem acceptCommand_host (op : Byte) (s : State) : (acceptCommand op s).host = s.host := rfl
@[simp] theorem acceptCommand_rdata (op : Byte) (s : State) : (acceptCommand op s).rdata = s.rdata := rfl
@[simp] theorem acceptCommand_collected (op : Byte) (s : State) : (acceptCommand op s).collected = s.collected :=
  rfl
@[simp] theorem acceptCommand_freeIx (op : Byte) (s : State) : (acceptCommand op s).freeIx = s.freeIx := rfl

/-! ### The end of a command (R352, spec/60_exceptions.md R410) -/

@[simp] theorem endCommand_cfg (st : Status) (p : Ports) (s : State) : (endCommand st p s).cfg = s.cfg := rfl
@[simp] theorem endCommand_status (st : Status) (p : Ports) (s : State) : (endCommand st p s).status = st :=
  rfl
@[simp] theorem endCommand_image (st : Status) (p : Ports) (s : State) : (endCommand st p s).image = s.image :=
  rfl
@[simp] theorem endCommand_pWidth (st : Status) (p : Ports) (s : State) : (endCommand st p s).pWidth = s.pWidth :=
  rfl
@[simp] theorem endCommand_pHeight (st : Status) (p : Ports) (s : State) : (endCommand st p s).pHeight = s.pHeight :=
  rfl
@[simp] theorem endCommand_pBpl (st : Status) (p : Ports) (s : State) : (endCommand st p s).pBpl = s.pBpl :=
  rfl
@[simp] theorem endCommand_arg0 (st : Status) (p : Ports) (s : State) : (endCommand st p s).arg0 = s.arg0 :=
  rfl
@[simp] theorem endCommand_arg1 (st : Status) (p : Ports) (s : State) : (endCommand st p s).arg1 = s.arg1 :=
  rfl
@[simp] theorem endCommand_arg2 (st : Status) (p : Ports) (s : State) : (endCommand st p s).arg2 = s.arg2 :=
  rfl
@[simp] theorem endCommand_inPos (st : Status) (p : Ports) (s : State) : (endCommand st p s).inPos = BitVec.ofNat 32 p.cursor :=
  rfl
@[simp] theorem endCommand_outLen (st : Status) (p : Ports) (s : State) : (endCommand st p s).outLen = BitVec.ofNat 32 p.output.length :=
  rfl
@[simp] theorem endCommand_res0 (st : Status) (p : Ports) (s : State) : (endCommand st p s).res0 = s.res0 :=
  rfl
@[simp] theorem endCommand_res1 (st : Status) (p : Ports) (s : State) : (endCommand st p s).res1 = s.res1 :=
  rfl
@[simp] theorem endCommand_res2 (st : Status) (p : Ports) (s : State) : (endCommand st p s).res2 = s.res2 :=
  rfl
@[simp] theorem endCommand_ports (st : Status) (p : Ports) (s : State) : (endCommand st p s).ports = { p with input := [] } :=
  rfl
@[simp] theorem endCommand_hdr (st : Status) (p : Ports) (s : State) : (endCommand st p s).hdr = unspecHeader s.freeIx :=
  rfl
@[simp] theorem endCommand_line (st : Status) (p : Ports) (s : State) : (endCommand st p s).line = [] := rfl
@[simp] theorem endCommand_phase (st : Status) (p : Ports) (s : State) : (endCommand st p s).phase = .idle :=
  rfl
@[simp] theorem endCommand_host (st : Status) (p : Ports) (s : State) : (endCommand st p s).host = s.host :=
  rfl
@[simp] theorem endCommand_rdata (st : Status) (p : Ports) (s : State) : (endCommand st p s).rdata = s.rdata :=
  rfl
@[simp] theorem endCommand_collected (st : Status) (p : Ports) (s : State) : (endCommand st p s).collected = s.collected :=
  rfl
@[simp] theorem endCommand_freeIx (st : Status) (p : Ports) (s : State) : (endCommand st p s).freeIx = s.freeIx.next :=
  rfl

@[simp] theorem epilogue_eq (p : Ports) (s : State) : epilogue p s = endCommand Status.success p s := rfl

@[simp] theorem raiseError_eq (e : CmdError) (p : Ports) (s : State) :
    raiseError e p s = endCommand (Status.failure e) p s := rfl

/-! ### A request never answered -/

@[simp] theorem stallCommand_cfg (p : Ports) (s : State) : (stallCommand p s).cfg = s.cfg := rfl
@[simp] theorem stallCommand_status (p : Ports) (s : State) : (stallCommand p s).status = s.status := rfl
@[simp] theorem stallCommand_image (p : Ports) (s : State) : (stallCommand p s).image = s.image := rfl
@[simp] theorem stallCommand_pWidth (p : Ports) (s : State) : (stallCommand p s).pWidth = s.pWidth := rfl
@[simp] theorem stallCommand_pHeight (p : Ports) (s : State) : (stallCommand p s).pHeight = s.pHeight := rfl
@[simp] theorem stallCommand_pBpl (p : Ports) (s : State) : (stallCommand p s).pBpl = s.pBpl := rfl
@[simp] theorem stallCommand_arg0 (p : Ports) (s : State) : (stallCommand p s).arg0 = s.arg0 := rfl
@[simp] theorem stallCommand_arg1 (p : Ports) (s : State) : (stallCommand p s).arg1 = s.arg1 := rfl
@[simp] theorem stallCommand_arg2 (p : Ports) (s : State) : (stallCommand p s).arg2 = s.arg2 := rfl
@[simp] theorem stallCommand_inPos (p : Ports) (s : State) : (stallCommand p s).inPos = s.inPos := rfl
@[simp] theorem stallCommand_outLen (p : Ports) (s : State) : (stallCommand p s).outLen = s.outLen := rfl
@[simp] theorem stallCommand_res0 (p : Ports) (s : State) : (stallCommand p s).res0 = s.res0 := rfl
@[simp] theorem stallCommand_res1 (p : Ports) (s : State) : (stallCommand p s).res1 = s.res1 := rfl
@[simp] theorem stallCommand_res2 (p : Ports) (s : State) : (stallCommand p s).res2 = s.res2 := rfl
@[simp] theorem stallCommand_ports (p : Ports) (s : State) : (stallCommand p s).ports = p := rfl
@[simp] theorem stallCommand_hdr (p : Ports) (s : State) : (stallCommand p s).hdr = s.hdr := rfl
@[simp] theorem stallCommand_line (p : Ports) (s : State) : (stallCommand p s).line = s.line := rfl
@[simp] theorem stallCommand_phase (p : Ports) (s : State) : (stallCommand p s).phase = .stalled := rfl
@[simp] theorem stallCommand_host (p : Ports) (s : State) : (stallCommand p s).host = s.host := rfl
@[simp] theorem stallCommand_rdata (p : Ports) (s : State) : (stallCommand p s).rdata = s.rdata := rfl
@[simp] theorem stallCommand_collected (p : Ports) (s : State) : (stallCommand p s).collected = s.collected :=
  rfl
@[simp] theorem stallCommand_freeIx (p : Ports) (s : State) : (stallCommand p s).freeIx = s.freeIx := rfl

/-! ### The results of DECODE and PROBE -/

@[simp] theorem setResults_cfg (w h : Nat) (r : Res2) (s : State) : (setResults w h r s).cfg = s.cfg := rfl
@[simp] theorem setResults_status (w h : Nat) (r : Res2) (s : State) : (setResults w h r s).status = s.status :=
  rfl
@[simp] theorem setResults_image (w h : Nat) (r : Res2) (s : State) : (setResults w h r s).image = s.image :=
  rfl
@[simp] theorem setResults_pWidth (w h : Nat) (r : Res2) (s : State) : (setResults w h r s).pWidth = s.pWidth :=
  rfl
@[simp] theorem setResults_pHeight (w h : Nat) (r : Res2) (s : State) : (setResults w h r s).pHeight = s.pHeight :=
  rfl
@[simp] theorem setResults_pBpl (w h : Nat) (r : Res2) (s : State) : (setResults w h r s).pBpl = s.pBpl := rfl
@[simp] theorem setResults_arg0 (w h : Nat) (r : Res2) (s : State) : (setResults w h r s).arg0 = s.arg0 := rfl
@[simp] theorem setResults_arg1 (w h : Nat) (r : Res2) (s : State) : (setResults w h r s).arg1 = s.arg1 := rfl
@[simp] theorem setResults_arg2 (w h : Nat) (r : Res2) (s : State) : (setResults w h r s).arg2 = s.arg2 := rfl
@[simp] theorem setResults_inPos (w h : Nat) (r : Res2) (s : State) : (setResults w h r s).inPos = s.inPos :=
  rfl
@[simp] theorem setResults_outLen (w h : Nat) (r : Res2) (s : State) : (setResults w h r s).outLen = s.outLen :=
  rfl
@[simp] theorem setResults_res0 (w h : Nat) (r : Res2) (s : State) : (setResults w h r s).res0 = BitVec.ofNat 32 w :=
  rfl
@[simp] theorem setResults_res1 (w h : Nat) (r : Res2) (s : State) : (setResults w h r s).res1 = BitVec.ofNat 32 h :=
  rfl
@[simp] theorem setResults_res2 (w h : Nat) (r : Res2) (s : State) : (setResults w h r s).res2 = r := rfl
@[simp] theorem setResults_ports (w h : Nat) (r : Res2) (s : State) : (setResults w h r s).ports = s.ports :=
  rfl
@[simp] theorem setResults_hdr (w h : Nat) (r : Res2) (s : State) : (setResults w h r s).hdr = s.hdr := rfl
@[simp] theorem setResults_line (w h : Nat) (r : Res2) (s : State) : (setResults w h r s).line = s.line := rfl
@[simp] theorem setResults_phase (w h : Nat) (r : Res2) (s : State) : (setResults w h r s).phase = s.phase :=
  rfl
@[simp] theorem setResults_host (w h : Nat) (r : Res2) (s : State) : (setResults w h r s).host = s.host := rfl
@[simp] theorem setResults_rdata (w h : Nat) (r : Res2) (s : State) : (setResults w h r s).rdata = s.rdata :=
  rfl
@[simp] theorem setResults_collected (w h : Nat) (r : Res2) (s : State) : (setResults w h r s).collected = s.collected :=
  rfl
@[simp] theorem setResults_freeIx (w h : Nat) (r : Res2) (s : State) : (setResults w h r s).freeIx = s.freeIx :=
  rfl

/-! ### Commit (spec/45_commands.md R369): all but the Image -/

@[simp] theorem commitImage_cfg (img : Image) (s : State) : (commitImage img s).cfg = s.cfg :=
  by unfold commitImage; split <;> rfl
@[simp] theorem commitImage_status (img : Image) (s : State) : (commitImage img s).status = s.status :=
  by unfold commitImage; split <;> rfl
@[simp] theorem commitImage_pWidth (img : Image) (s : State) : (commitImage img s).pWidth = s.pWidth :=
  by unfold commitImage; split <;> rfl
@[simp] theorem commitImage_pHeight (img : Image) (s : State) : (commitImage img s).pHeight = s.pHeight :=
  by unfold commitImage; split <;> rfl
@[simp] theorem commitImage_pBpl (img : Image) (s : State) : (commitImage img s).pBpl = s.pBpl :=
  by unfold commitImage; split <;> rfl
@[simp] theorem commitImage_arg0 (img : Image) (s : State) : (commitImage img s).arg0 = s.arg0 :=
  by unfold commitImage; split <;> rfl
@[simp] theorem commitImage_arg1 (img : Image) (s : State) : (commitImage img s).arg1 = s.arg1 :=
  by unfold commitImage; split <;> rfl
@[simp] theorem commitImage_arg2 (img : Image) (s : State) : (commitImage img s).arg2 = s.arg2 :=
  by unfold commitImage; split <;> rfl
@[simp] theorem commitImage_inPos (img : Image) (s : State) : (commitImage img s).inPos = s.inPos :=
  by unfold commitImage; split <;> rfl
@[simp] theorem commitImage_outLen (img : Image) (s : State) : (commitImage img s).outLen = s.outLen :=
  by unfold commitImage; split <;> rfl
@[simp] theorem commitImage_res0 (img : Image) (s : State) : (commitImage img s).res0 = s.res0 :=
  by unfold commitImage; split <;> rfl
@[simp] theorem commitImage_res1 (img : Image) (s : State) : (commitImage img s).res1 = s.res1 :=
  by unfold commitImage; split <;> rfl
@[simp] theorem commitImage_res2 (img : Image) (s : State) : (commitImage img s).res2 = s.res2 :=
  by unfold commitImage; split <;> rfl
@[simp] theorem commitImage_ports (img : Image) (s : State) : (commitImage img s).ports = s.ports :=
  by unfold commitImage; split <;> rfl
@[simp] theorem commitImage_hdr (img : Image) (s : State) : (commitImage img s).hdr = s.hdr :=
  by unfold commitImage; split <;> rfl
@[simp] theorem commitImage_line (img : Image) (s : State) : (commitImage img s).line = s.line :=
  by unfold commitImage; split <;> rfl
@[simp] theorem commitImage_phase (img : Image) (s : State) : (commitImage img s).phase = s.phase :=
  by unfold commitImage; split <;> rfl
@[simp] theorem commitImage_host (img : Image) (s : State) : (commitImage img s).host = s.host :=
  by unfold commitImage; split <;> rfl
@[simp] theorem commitImage_rdata (img : Image) (s : State) : (commitImage img s).rdata = s.rdata :=
  by unfold commitImage; split <;> rfl
@[simp] theorem commitImage_collected (img : Image) (s : State) : (commitImage img s).collected = s.collected :=
  by unfold commitImage; split <;> rfl
@[simp] theorem commitImage_freeIx (img : Image) (s : State) : (commitImage img s).freeIx = s.freeIx :=
  by unfold commitImage; split <;> rfl

/-! ### The platform reset (spec/70_reset_and_hazards.md R441) -/

@[simp] theorem resetCore_cfg (s : State) : (resetCore s).cfg = s.cfg := rfl
@[simp] theorem resetCore_status (s : State) : (resetCore s).status = State.reset.status := rfl
@[simp] theorem resetCore_image (s : State) : (resetCore s).image = Image.none := rfl
@[simp] theorem resetCore_pWidth (s : State) : (resetCore s).pWidth = 0#17 := rfl
@[simp] theorem resetCore_pHeight (s : State) : (resetCore s).pHeight = 0#17 := rfl
@[simp] theorem resetCore_pBpl (s : State) : (resetCore s).pBpl = 0#16 := rfl
@[simp] theorem resetCore_arg0 (s : State) : (resetCore s).arg0 = 0#32 := rfl
@[simp] theorem resetCore_arg1 (s : State) : (resetCore s).arg1 = 0#32 := rfl
@[simp] theorem resetCore_arg2 (s : State) : (resetCore s).arg2 = 0#8 := rfl
@[simp] theorem resetCore_inPos (s : State) : (resetCore s).inPos = 0#32 := rfl
@[simp] theorem resetCore_outLen (s : State) : (resetCore s).outLen = 0#32 := rfl
@[simp] theorem resetCore_res0 (s : State) : (resetCore s).res0 = 0#32 := rfl
@[simp] theorem resetCore_res1 (s : State) : (resetCore s).res1 = 0#32 := rfl
@[simp] theorem resetCore_res2 (s : State) : (resetCore s).res2 = State.reset.res2 := rfl
@[simp] theorem resetCore_hdr (s : State) : (resetCore s).hdr = Header.zero := rfl
@[simp] theorem resetCore_line (s : State) : (resetCore s).line = [] := rfl
@[simp] theorem resetCore_phase (s : State) : (resetCore s).phase = .idle := rfl
@[simp] theorem resetCore_host (s : State) : (resetCore s).host = s.host := rfl
@[simp] theorem resetCore_rdata (s : State) : (resetCore s).rdata = s.rdata := rfl
@[simp] theorem resetCore_freeIx (s : State) : (resetCore s).freeIx = s.freeIx.next := rfl

/-! ### The committed Image -/

@[simp] theorem commitImage_image_repr (img : Image) (s : State) : (commitImage img s).image.repr = img.repr := by
  unfold commitImage; split <;> rfl
@[simp] theorem commitImage_image_width (img : Image) (s : State) : (commitImage img s).image.width = img.width := by
  unfold commitImage; split <;> rfl
@[simp] theorem commitImage_image_height (img : Image) (s : State) : (commitImage img s).image.height = img.height := by
  unfold commitImage; split <;> rfl
@[simp] theorem commitImage_image_bpl (img : Image) (s : State) : (commitImage img s).image.bpl = img.bpl := by
  unfold commitImage; split <;> rfl
@[simp] theorem commitImage_image_pix (img : Image) (s : State) : (commitImage img s).image.pix = img.pix := by
  unfold commitImage; split <;> rfl

theorem commitImage_image_of_indexed (img : Image) (s : State) (h : img.repr = .indexed) :
    (commitImage img s).image = img := by
  unfold commitImage; rw [h]

/-! ### Ports -/

@[simp] theorem startPorts_input (p : Ports) : (startPorts p).input = p.input := rfl
@[simp] theorem startPorts_cursor (p : Ports) : (startPorts p).cursor = 0 := rfl
@[simp] theorem startPorts_output (p : Ports) : (startPorts p).output = [] := rfl
@[simp] theorem startPorts_draws (p : Ports) : (startPorts p).draws = p.draws := rfl
@[simp] theorem advance_input (n : Nat) (p : Ports) : (advance n p).input = p.input.drop n := rfl
@[simp] theorem advance_cursor (n : Nat) (p : Ports) : (advance n p).cursor = p.cursor + n := rfl
@[simp] theorem advance_output (n : Nat) (p : Ports) : (advance n p).output = p.output := rfl
@[simp] theorem advance_draws (n : Nat) (p : Ports) : (advance n p).draws = p.draws := rfl

/-! ### STATUS -/

@[simp] theorem running_busy : Status.running.busy = true := rfl
@[simp] theorem running_done : Status.running.done = false := rfl
@[simp] theorem running_error : Status.running.error = none := rfl
@[simp] theorem success_busy : Status.success.busy = false := rfl
@[simp] theorem success_done : Status.success.done = true := rfl
@[simp] theorem success_error : Status.success.error = none := rfl
@[simp] theorem failure_busy (e : CmdError) : (Status.failure e).busy = false := rfl
@[simp] theorem failure_done (e : CmdError) : (Status.failure e).done = true := rfl
@[simp] theorem failure_error (e : CmdError) : (Status.failure e).error = some e := rfl

end Sys2Proof.Machine
end

