-- ==== Sys2Proof/Laws/Ops.lean ====
section
/-! SUPPORT. One lemma for each shared operation that says all it can do: the buffer accesses, the ports, a
command's beginning and end. -/

namespace Sys2Proof.Machine

open Host

/-! ### Buffers (spec/20_memory.md R78) -/

section Buffers
variable {α : Type} {bound i n : Nat} {buf out vs : List α}

theorem memRead_eq_some :
    memRead bound buf i n = some out ↔
      i + n ≤ bound ∧ i + n ≤ buf.length ∧ out = (buf.drop i).take n := by
  unfold memRead; split <;> grind

theorem memRead_length (h : memRead bound buf i n = some out) : out.length = n := by
  obtain ⟨_, hb, rfl⟩ := memRead_eq_some.mp h
  simp; omega

theorem memWrite_eq_some :
    memWrite bound buf i vs = some out ↔
      i + vs.length ≤ bound ∧ i ≤ buf.length ∧ out = buf.take i ++ vs ++ buf.drop (i + vs.length) := by
  unfold memWrite; split <;> grind

/-- A write inside the buffer keeps its size; one at its end makes it grow by what is written. -/
theorem memWrite_length (h : memWrite bound buf i vs = some out) :
    out.length = max buf.length (i + vs.length) := by
  obtain ⟨_, hb, rfl⟩ := memWrite_eq_some.mp h
  simp; omega

/-- What was written reads back. -/
theorem memRead_of_memWrite_same (h : memWrite bound buf i vs = some out) :
    memRead bound out i vs.length = some vs := by
  have hl := memWrite_length h
  obtain ⟨hb, hi, rfl⟩ := memWrite_eq_some.mp h
  refine memRead_eq_some.mpr ⟨hb, by omega, ?_⟩
  simp [List.append_assoc, Nat.min_eq_left hi]

/-- Every other element reads as before. -/
theorem memWrite_getElem?_other (h : memWrite bound buf i vs = some out) {j : Nat}
    (hj : j < i ∨ i + vs.length ≤ j) : out[j]? = buf[j]? := by
  obtain ⟨_, hi, rfl⟩ := memWrite_eq_some.mp h
  grind

/-- A written element is the one that was written there. -/
theorem memWrite_getElem?_same (h : memWrite bound buf i vs = some out) {j : Nat} (hj : j < vs.length) :
    out[i + j]? = vs[j]? := by
  obtain ⟨_, hi, rfl⟩ := memWrite_eq_some.mp h
  grind

end Buffers

/-! ### Pieces of a command -/

section Replies
variable {α β : Type} {k : α → Ports → Reply β}

@[simp] theorem andThen_ok (a : α) (p : Ports) : (Reply.ok a p).andThen k = k a p := rfl
@[simp] theorem andThen_error (e : CmdError) (p : Ports) : (Reply.error (α := α) e p).andThen k = .error e p := rfl
@[simp] theorem andThen_stall (p : Ports) : (Reply.stall (α := α) p).andThen k = .stall p := rfl
@[simp] theorem andThen_refuse (r : Refusal) : (Reply.refuse (α := α) r).andThen k = .refuse r := rfl

/-- A piece that answers `ok` did so through both its parts. -/
theorem andThen_eq_ok {r : Reply α} {b : β} {q : Ports} :
    r.andThen k = .ok b q ↔ ∃ a p, r = .ok a p ∧ k a p = .ok b q := by
  cases r <;> simp

@[simp] theorem inRange_some (a : α) (p : Ports) : inRange (some a) p = .ok a p := rfl
@[simp] theorem inRange_none (p : Ports) : inRange (none : Option α) p = .refuse .bufferRange := rfl

theorem require_true {c : Bool} (h : c = true) (e : CmdError) (p : Ports) : require c e p = .ok () p := by
  simp [require, h]

theorem require_false {c : Bool} (h : c = false) (e : CmdError) (p : Ports) :
    require c e p = .error e p := by
  simp [require, h]

end Replies

/-! ### The ports (R72 to R77) -/

/-- The ports after one request was answered. -/
def Ports.answered (p : Ports) : Ports := { p with draws := p.draws.tail }

/-- No request of these ports fails or goes unanswered. -/
abbrev Ports.Answering (p : Ports) : Prop := ∀ d ∈ p.draws, d = PortDraw.ok

theorem answered_answering {p : Ports} (h : p.Answering) : p.answered.Answering :=
  fun d hd => h d (List.mem_of_mem_tail hd)

@[simp] theorem answered_input (p : Ports) : p.answered.input = p.input := rfl
@[simp] theorem answered_cursor (p : Ports) : p.answered.cursor = p.cursor := rfl
@[simp] theorem answered_output (p : Ports) : p.answered.output = p.output := rfl

/-- An answering port serves the request. -/
theorem answer_of_answering {α : Type} {p : Ports} (h : p.Answering) (served : Ports → Reply α)
    (failed : Nat → Ports → Reply α) : answer p served failed = served p.answered := by
  obtain ⟨input, cursor, output, draws⟩ := p
  cases draws with
  | nil => rfl
  | cons d ds =>
    obtain rfl : d = .ok := h d (by simp)
    rfl

/-- `In.ReadExact(n)` with the bytes there (R73). -/
theorem readExact_of_enough {p : Ports} {n : Nat} (h : p.Answering) (hn : n ≤ p.input.length) :
    readExact n p = .ok (some (p.input.take n)) (advance n p.answered) := by
  simp [readExact, answer_of_answering h, Nat.not_lt.mpr hn]

/-- `In.ReadExact(n)` past the end: SHORT, and what remained is consumed (R73). -/
theorem readExact_of_short {p : Ports} {n : Nat} (h : p.Answering) (hn : p.input.length < n) :
    readExact n p = .ok none (advance p.input.length p.answered) := by
  simp [readExact, answer_of_answering h, hn]

/-- `In.ReadByte()` with a byte there (R74). -/
theorem readByte_of_cons {p : Ports} {b : Byte} {rest : List Byte} (h : p.Answering) (hp : p.input = b :: rest) :
    readByte p = .ok (some b) { p.answered with input := rest, cursor := p.cursor + 1 } := by
  simp [readByte, answer_of_answering h, hp]

/-- `In.ReadByte()` at the end: EOS, which moves nothing (R74). -/
theorem readByte_of_nil {p : Ports} (h : p.Answering) (hp : p.input = []) : readByte p = .ok none p.answered := by
  simp [readByte, answer_of_answering h, hp]

/-- `In.Skip(n)` (R75). -/
theorem skip_of_enough {p : Ports} {n : Nat} (h : p.Answering) (hn : n ≤ p.input.length) :
    skip n p = .ok false (advance n p.answered) := by
  simp [skip, answer_of_answering h, Nat.not_lt.mpr hn]

/-- `In.Skip(n)` past the end (R75). -/
theorem skip_of_short {p : Ports} {n : Nat} (h : p.Answering) (hn : p.input.length < n) :
    skip n p = .ok true (advance p.input.length p.answered) := by
  simp [skip, answer_of_answering h, hn]

/-- A row of `Out.Write` requests on an answering port appends every part in order (R77). -/
theorem sendParts_of_answering (parts : List (List Byte)) {ds : List PortDraw} (h : ∀ d ∈ ds, d = PortDraw.ok) :
    sendParts parts ds = (parts.flatten, .sent, ds.drop parts.length) := by
  induction parts generalizing ds with
  | nil => simp [sendParts]
  | cons part parts ih =>
    cases ds with
    | nil => simp [sendParts, ih (ds := []) (by simp)]
    | cons d ds =>
      obtain rfl : d = .ok := h d (by simp)
      have hds : ∀ d ∈ ds, d = PortDraw.ok := fun d hd => h d (List.mem_cons_of_mem _ hd)
      simp [sendParts, ih hds]

/-- `writeAll` on an answering port (R77). -/
theorem writeAll_of_answering (parts : List (List Byte)) {p : Ports} (h : p.Answering) :
    writeAll parts p =
      .ok () { p with output := p.output ++ parts.flatten, draws := p.draws.drop parts.length } := by
  simp [writeAll, sendParts_of_answering parts h]

/-- What a row of requests appends is a first part of all its bytes (R82; log 4 where one is never
answered). -/
theorem sendParts_isPrefix (parts : List (List Byte)) (ds : List PortDraw) :
    (sendParts parts ds).1 <+: parts.flatten := by
  induction parts generalizing ds with
  | nil => simp [sendParts]
  | cons part parts ih =>
    rcases ds with _ | ⟨_ | m | m, ds⟩
    · simpa [sendParts] using ih []
    · simpa [sendParts] using ih ds
    · exact (List.take_prefix m part).trans (by simp)
    · exact (List.take_prefix m part).trans (by simp)

/-! ### A command's beginning and end -/

theorem runCommand_of_ready {s : State} (h : s.Ready) (body : State → Outcome State Fault Refusal) :
    runCommand s body = body (prologue s) := by
  unfold runCommand
  revert h; unfold State.Ready
  cases s.phase <;> simp [Phase.ready]

theorem runCommand_of_not_ready {s : State} (h : ¬ s.Ready) (body : State → Outcome State Fault Refusal) :
    runCommand s body = .fault .cmdWhileBusy := by
  unfold runCommand
  revert h; unfold State.Ready
  cases s.phase <;> simp [Phase.ready]

/-- A command that answers a next state began, and its body gave that state. -/
theorem runCommand_eq_next {s t : State} {body : State → Outcome State Fault Refusal} :
    runCommand s body = .next t ↔ s.Ready ∧ body (prologue s) = .next t := by
  by_cases h : s.Ready
  · rw [runCommand_of_ready h]; exact ⟨fun hb => ⟨h, hb⟩, And.right⟩
  · rw [runCommand_of_not_ready h]; exact ⟨nofun, fun hb => absurd hb.1 h⟩

section Conclude
variable {α : Type} (s : State) (effect : α → State → State)

@[simp] theorem conclude_ok (a : α) (p : Ports) :
    conclude s (.ok a p) effect = .next (endCommand Status.success p (effect a s)) := rfl
@[simp] theorem conclude_error (e : CmdError) (p : Ports) :
    conclude s (.error e p) effect = .next (endCommand (Status.failure e) p s) := rfl
@[simp] theorem conclude_stall (p : Ports) : conclude s (.stall p) effect = .next (stallCommand p s) := rfl
@[simp] theorem conclude_refuse (r : Refusal) : conclude s (.refuse r) effect = .refused r := rfl

/-- A command that answers a next state succeeded, failed with an error, or is never answered. -/
theorem conclude_eq_next {r : Reply α} {t : State} :
    conclude s r effect = .next t ↔
      (∃ a p, r = .ok a p ∧ t = endCommand Status.success p (effect a s)) ∨
      (∃ e p, r = .error e p ∧ t = endCommand (Status.failure e) p s) ∨
      (∃ p, r = .stall p ∧ t = stallCommand p s) := by
  cases r <;> simp [eq_comm]

end Conclude

/-- The end of a command, with success or error (spec/10_state.md R48, R49). -/
theorem endCommand_ended (st : Status) (p : Ports) (s : State) :
    Ended (endCommand st p s) st p.cursor p.output := by
  simp [Ended]

/-- Error entry keeps the Image, the results and the operands (spec/60_exceptions.md R410). -/
theorem endCommand_keepsAll (st : Status) (p : Ports) (s : State) : KeepsAll s (endCommand st p s) := by
  simp [KeepsAll, KeepsResults, KeepsOperands]

/-- The precondition of the commands that read the Image. -/
theorem requireImage_of_wf {img : Image} (p : Ports) (hr : img.repr ≠ .absent) (hw : Memory.wf img) :
    requireImage img p = .ok () p := by
  obtain ⟨h1, h2, h3⟩ := hw
  simp [requireImage, require, Image.sized, hr, h1, h2, h3]

/-- The precondition of READ_INDEX and READ_PALETTE. -/
theorem requireIndexed_of_wf {img : Image} (p : Ports) (hr : img.repr = .indexed) (hw : Memory.wf img) :
    requireIndexed img p = .ok () p := by
  obtain ⟨h1, h2, h3⟩ := hw
  simp [requireIndexed, require, Image.sized, hr, h1, h2, h3]

/-! ### Buffer sizes (spec/20_memory.md R78) -/

@[simp] theorem unspecPal_length (ix : Draw) : (unspecPal ix).length = 256 := by simp [unspecPal]
@[simp] theorem unspecIdx_length (ix : Draw) (n : Nat) : (unspecIdx ix n).length = n := by simp [unspecIdx]
@[simp] theorem depalettize_length (pal : List Sample) (idx : List Byte) :
    (depalettize pal idx).length = idx.length := by simp [depalettize]
@[simp] theorem forceAlpha_length (pal : List Sample) : (forceAlpha pal).length = pal.length := by
  cases pal <;> simp [forceAlpha]
@[simp] theorem paletteOfBytes_length (bs : List Byte) : (paletteOfBytes bs).length = 256 := by
  simp [paletteOfBytes, rgbTriples]
@[simp] theorem fallbackPalette_length (fb : List Rgb) : (fallbackPalette fb).length = 256 := by
  simp [fallbackPalette]

/-- The palettes the machine builds have the alpha of spec/10_state.md R56. -/
theorem forceAlpha_alphaForced {pal : List Sample} (h : pal ≠ []) : alphaForced (forceAlpha pal) := by
  cases pal with
  | nil => exact absurd rfl h
  | cons p rest => simp [alphaForced, forceAlpha]

theorem paletteOfBytes_alphaForced (bs : List Byte) : alphaForced (paletteOfBytes bs) :=
  forceAlpha_alphaForced (by simp [rgbTriples])

theorem fallbackPalette_alphaForced (fb : List Rgb) : alphaForced (fallbackPalette fb) :=
  forceAlpha_alphaForced (by simp)

theorem wf_none : Memory.wf Image.none := ⟨List.length_replicate, rfl, rfl⟩

/-- CLEAR keeps the buffers' sizes. -/
theorem wf_clearedImage (ix : Draw) {img : Image} (h : Memory.wf img)
    (h0 : img.repr = .absent → img.width = 0#17 ∧ img.height = 0#17 ∧ img.bpl = 0#16) :
    Memory.wf (clearedImage ix img) := by
  unfold clearedImage
  cases hr : img.repr with
  | absent =>
    obtain ⟨hw, hh, hb⟩ := h0 hr
    have hk : { img with width := 0#17, height := 0#17, bpl := 0#16 } = img := by
      obtain ⟨repr, width, height, bpl, pal, idx, pix⟩ := img
      simp only at hw hh hb
      subst hw hh hb; rfl
    show Memory.wf { img with width := 0#17, height := 0#17, bpl := 0#16 }
    rw [hk]; exact h
  | _ => exact ⟨unspecPal_length ix, rfl, rfl⟩

/-- Commit keeps the sizes of an indexed Image that has them (spec/45_commands.md R369). -/
theorem wf_commit_indexed {img : Image} (s : State) (hr : img.repr = .indexed) (h : Memory.wf img) :
    Memory.wf (commitImage img s).image := by
  rw [commitImage_image_of_indexed img s hr]; exact h

/-- Commit gives a truecolor Image its two unspecified buffers (R369). -/
theorem wf_commit_truecolor {img : Image} (s : State) (hr : img.repr = .truecolor)
    (h : img.pix.length = img.area) : Memory.wf (commitImage img s).image := by
  unfold commitImage
  simp [hr, Memory.wf, Image.area, Image.w, Image.h] at h ⊢
  exact h

/-- The bound on a height says nothing of one up to 65535. -/
theorem requireHeight_of_le {h : Nat} (hh : h ≤ 65535) (p : Ports) : requireHeight h p = .ok () p := by
  simp [requireHeight, require, hh]

/-- A height above 65535 is not committed. -/
theorem requireHeight_of_gt {h : Nat} (hh : 65535 < h) (p : Ports) :
    requireHeight h p = .error .tooLarge p := by
  simp [requireHeight, require, hh]

end Sys2Proof.Machine
end

