-- ==== Sys2Proof/Laws/Code.lean ====
section
/-! SUPPORT. One lemma for each operation of the RLE Decoder that says all it can do. -/

namespace Sys2Proof.Machine

open Host

/-! ### The code fetch (spec/41_rle_decoder.md R183, R185, R186) -/

theorem decode_code_of_marker {b : Byte} (h : isMarker b = true) (v : Byte) :
    (decode (.code [b, v])).toOption = some (.run (b.extractLsb' 0 6) v) := by
  simp [decode, decodeCode, h, Except.toOption]

theorem decode_code_of_not_marker {b : Byte} (h : isMarker b = false) :
    (decode (.code [b])).toOption = some (.lit b) := by
  simp [decode, decodeCode, h, Except.toOption]

theorem fetchCode_lit {p : Ports} {b : Byte} {rest : List Byte} (ha : p.Answering) (hp : p.input = b :: rest)
    (hb : isMarker b = false) :
    fetchCode p = .ok (some (.lit b)) { p.answered with input := rest, cursor := p.cursor + 1 } := by
  simp [fetchCode, readByte_of_cons ha hp, hb, decode_code_of_not_marker hb]

theorem fetchCode_run {p : Ports} {b v : Byte} {rest : List Byte} (ha : p.Answering)
    (hp : p.input = b :: v :: rest) (hb : isMarker b = true) :
    fetchCode p = .ok (some (.run (b.extractLsb' 0 6) v))
      { p.answered.answered with input := rest, cursor := p.cursor + 1 + 1 } := by
  have hv := readByte_of_cons (p := ⟨v :: rest, p.cursor + 1, p.output, p.draws.tail⟩)
    (answered_answering ha) rfl
  simp [fetchCode, readByte_of_cons ha hp, hb, decode_code_of_marker hb, Ports.answered, hv]

theorem fetchCode_end {p : Ports} (ha : p.Answering) (hp : p.input = []) :
    fetchCode p = .ok none p.answered := by
  simp [fetchCode, readByte_of_nil ha hp]

theorem fetchCode_missing {p : Ports} {b : Byte} (ha : p.Answering) (hp : p.input = [b])
    (hb : isMarker b = true) :
    fetchCode p = .ok none { p.answered.answered with input := [], cursor := p.cursor + 1 } := by
  have hv := readByte_of_nil (p := ⟨[], p.cursor + 1, p.output, p.draws.tail⟩) (answered_answering ha) rfl
  simp [fetchCode, readByte_of_cons ha hp, hb, Ports.answered, hv]

/-! ### The engine's writes (R180, R181, R184) -/

/-- Inside LINE the writes land: as many copies as are left of the run and of the scanline. -/
theorem writeCopies_of_fits {e : Engine} {line : List Byte}
    (hb : e.x + min e.rem (e.lineLen - e.x) ≤ lineBound) (hx : e.x ≤ line.length) :
    writeCopies e line =
      some ({ e with x := e.x + min e.rem (e.lineLen - e.x), rem := e.rem - min e.rem (e.lineLen - e.x) },
        line.take e.x ++ List.replicate (min e.rem (e.lineLen - e.x)) e.val ++
          line.drop (e.x + min e.rem (e.lineLen - e.x))) := by
  simp [writeCopies, memWrite, hb, hx]

/-- The writes leave the size of LINE, and a run is over unless the scanline is. -/
theorem writeCopies_bounds {e e' : Engine} {line line' : List Byte} (h : writeCopies e line = some (e', line'))
    (hx : e.x ≤ e.lineLen) (hl : line.length = e.lineLen) :
    line'.length = e.lineLen ∧ e'.x ≤ e.lineLen ∧ e'.lineLen = e.lineLen ∧
      (e'.x < e.lineLen → e'.rem = 0) ∧ e'.y = e.y ∧ e'.lines = e.lines ∧ e'.fill = e.fill ∧
      e'.consumer = e.consumer ∧ e'.staged = e.staged ∧ e'.stopped = e.stopped ∧ e'.val = e.val := by
  obtain ⟨out, ho, he⟩ := Option.map_eq_some_iff.mp h
  obtain ⟨rfl, rfl⟩ := Prod.mk.inj he
  have := memWrite_length ho
  simp only [List.length_replicate] at this
  refine ⟨by omega, by simp only; omega, rfl, fun hlt => ?_, rfl, rfl, rfl, rfl, rfl, rfl, rfl⟩
  simp only at hlt ⊢
  omega

/-- Outside a running body a code form is refused by name (log 18). -/
theorem execCode_no_body {n : Nat} {v : Byte} {s : State} (h : ∀ e, s.phase ≠ .body e) :
    execCode n v s = .refused .noBodyRunning := by
  unfold execCode
  split
  · next e he => exact absurd he (h e)
  · rfl

/-- A code form in a running body whose LINE has its size: the copies are written, and nothing else. -/
theorem execCode_in_body {n : Nat} {v : Byte} {s : State} {e : Engine} (h : s.phase = .body e)
    (hx : e.x ≤ e.lineLen) (hb : e.lineLen ≤ lineBound) (hl : s.line.length = e.lineLen) :
    execCode n v s = .next { s with
      phase := .body { e with
        x := e.x + min n (e.lineLen - e.x), rem := n - min n (e.lineLen - e.x), val := v }
      line := s.line.take e.x ++ List.replicate (min n (e.lineLen - e.x)) v ++
        s.line.drop (e.x + min n (e.lineLen - e.x)) } := by
  unfold execCode
  rw [h]
  have hw := writeCopies_of_fits (e := { e with rem := n, val := v }) (line := s.line)
    (by simp only; omega) (by simp only; omega)
  simp only [hw]

/-- At a code boundary the engine rests: the next thing it does is a fetch. -/
theorem settle_at_boundary (cfg : Config) {n : Nat} (hn : n ≠ 0) {e : Engine} (line : List Byte) (p : Ports)
    (hx : e.x < e.lineLen) (hs : e.stopped = false) : settle cfg n e line p = .ok (e, line) p := by
  cases n with
  | zero => exact absurd rfl hn
  | succ n => simp [settle, hx, hs]

end Sys2Proof.Machine
end

