-- ==== Sys2Proof/Laws/PerInstr.lean ====
section
/-! SUPPORT. What is said of every instruction as syntax: the shape of its encoding
(spec/30_encoding.md R100, R102, R106, R107, R109). -/

namespace Sys2Proof.Laws.EncodedShape

/-- A code form is one byte that is no marker or two bytes of which the first is one; a command is a word
whose bits [31:8] are zero, which decodes to it. -/
def Statement (i : Instr) : Prop :=
  i.WellFormed →
    match encode i with
    | .code bytes =>
      (∃ v, bytes = [v] ∧ isMarker v = false) ∨ (∃ b v, bytes = [b, v] ∧ isMarker b = true)
    | .command w => commandMbz w = 0#24 ∧ decodeCommand w = .ok i

theorem lit (v : Byte) : Statement (.lit v) := by
  intro h
  exact .inl ⟨v, rfl, by simpa [Instr.WellFormed, Instr.wellFormed] using h⟩

theorem run (n : BitVec 6) (v : Byte) : Statement (.run n v) := by
  have marked : ∀ n : BitVec 6, isMarker (0xC0#8 ||| n.setWidth 8) = true := by decide
  exact fun _ => .inr ⟨_, v, rfl, marked n⟩

theorem nop : Statement .nop := fun _ => ⟨by decide, rfl⟩
theorem decode : Statement .decode := fun _ => ⟨by decide, rfl⟩
theorem probe : Statement .probe := fun _ => ⟨by decide, rfl⟩
theorem loadIndexed : Statement .loadIndexed := fun _ => ⟨by decide, rfl⟩
theorem loadTruecolor : Statement .loadTruecolor := fun _ => ⟨by decide, rfl⟩
theorem readIndex : Statement .readIndex := fun _ => ⟨by decide, rfl⟩
theorem readPalette : Statement .readPalette := fun _ => ⟨by decide, rfl⟩
theorem readPixels : Statement .readPixels := fun _ => ⟨by decide, rfl⟩
theorem clear : Statement .clear := fun _ => ⟨by decide, rfl⟩
theorem rleDecode : Statement .rleDecode := fun _ => ⟨by decide, rfl⟩
theorem rleEncode : Statement .rleEncode := fun _ => ⟨by decide, rfl⟩
theorem writePcx : Statement .writePcx := fun _ => ⟨by decide, rfl⟩
theorem writeIco : Statement .writeIco := fun _ => ⟨by decide, rfl⟩
theorem writeBmp : Statement .writeBmp := fun _ => ⟨by decide, rfl⟩
theorem writeBmpa : Statement .writeBmpa := fun _ => ⟨by decide, rfl⟩

end Sys2Proof.Laws.EncodedShape
end

