-- ==== Sys2Proof/Tests/Slice0.lean ====
section
/-! SUPPORT. Tests. Expected values come from the spec: its encodings, its worked examples and its test
vectors (spec/95_test_vectors.md), named in each docstring. The witnesses at the end show, for every
statement with hypotheses, a state and operands that meet them. -/

namespace Sys2Proof.Tests

open Host Sys2Proof.Machine

set_option maxRecDepth 100000
set_option synthInstance.maxSize 2000

/-! ### Helpers -/

/-- A byte list from numerals. -/
def bytes (l : List Nat) : List Byte := l.map (BitVec.ofNat 8)

/-- The vectors' parameters: policies at their defaults, `BUF_PIXELS` = 65536. -/
def testCfg : Config := { defaultConfig with bufPixels := 65536, nInstances := 1, mpcxBase := 0x1000 }

/-- Reset under these parameters. -/
def s0 : State := { State.reset with cfg := testCfg }

/-- A state with an input sequence. -/
def feed (input : List Byte) (s : State) : State := { s with ports := { s.ports with input := input } }

/-- The ARG registers. -/
def args (a0 a1 a2 : Nat) (s : State) : State :=
  { s with arg0 := BitVec.ofNat 32 a0, arg1 := BitVec.ofNat 32 a1, arg2 := BitVec.ofNat 8 a2 }

/-- The P registers. -/
def geometry (w h bpl : Nat) (s : State) : State :=
  { s with pWidth := BitVec.ofNat 17 w, pHeight := BitVec.ofNat 17 h, pBpl := BitVec.ofNat 16 bpl }

/-- Whether an outcome is a next state of which `f` holds. -/
def nextIs (o : Outcome State Fault Refusal) (f : State → Bool) : Bool :=
  match o with
  | .next t => f t
  | .fault _ => false
  | .refused _ => false

/-- Whether an outcome is this fault. -/
def faultIs (o : Outcome State Fault Refusal) (why : Fault) : Bool :=
  match o with
  | .next _ => false
  | .fault r => r == why
  | .refused _ => false

/-- Whether an outcome is this refusal. -/
def refusedIs (o : Outcome State Fault Refusal) (why : Refusal) : Bool :=
  match o with
  | .next _ => false
  | .fault _ => false
  | .refused r => r == why

/-- `n` steps from reset of a host program. -/
def sys2run (n : Nat) (program : List HostOp) : Outcome State Fault Refusal :=
  Sys2Proof.core.run n { s0 with host := program }

/-- A header of the reference form with the fields given (spec/95_test_vectors.md section 0). -/
def header (bpp startX startY endX endY planes bpl : Nat) : List Byte :=
  bytes [0x0A, 0x05, 0x01, bpp] ++ toLE16 startX ++ toLE16 startY ++ toLE16 endX ++ toLE16 endY ++
    bytes [0, 0, 0, 0] ++ (List.range 16).flatMap (fun i => List.replicate 3 (BitVec.ofNat 8 (17 * i))) ++
    bytes [0, planes] ++ toLE16 bpl ++ bytes [1, 0, 0, 0, 0, 0] ++ List.replicate 54 0#8

/-- HDR22. -/
def hdr22 : List Byte := header 8 0 0 1 1 1 2

/-- The Image of V-DEC-1. -/
def image22 : Image :=
  { repr := .indexed, width := 2#17, height := 2#17, bpl := 2#16,
    pal := fallbackPalette (parseHeader hdr22).fb, idx := bytes [1, 2, 4, 5],
    pix := depalettize (fallbackPalette (parseHeader hdr22).fb) (bytes [1, 2, 4, 5]) }

/-- The Image of V-CMD-4. -/
def image21 : Image :=
  { repr := .truecolor, width := 2#17, height := 1#17, bpl := 2#16,
    pal := List.replicate 256 Sample.zero, idx := bytes [0, 0],
    pix := [⟨0xFF#8, 0x00#8, 0x00#8, 0xFF#8⟩, ⟨0x00#8, 0xFF#8, 0x00#8, 0x80#8⟩] }

/-- An Image of one color. -/
def plain (repr : ImgRepr) (w h : Nat) : Image :=
  { repr := repr, width := BitVec.ofNat 17 w, height := BitVec.ofNat 17 h, bpl := BitVec.ofNat 16 w,
    pal := List.replicate 256 Sample.zero, idx := List.replicate (w * h) 1#8,
    pix := List.replicate (w * h) Sample.zero }

/-- A state with an Image. -/
def holding (img : Image) (s : State) : State := { s with image := img }

/-- RLE_DECODE's body with one scanline of `n` positions, of which `x` are filled. -/
def inBody (n x : Nat) (input : List Byte) : State :=
  { (feed input s0) with
    arg0 := BitVec.ofNat 32 n, arg1 := 1#32, arg2 := 0xEE#8, status := Status.running
    phase := .body { lineLen := n, lines := 1, fill := 0xEE#8, consumer := .raw,
                     staged := { Image.none with pal := [] }, y := 0, x := x, rem := 0, val := 0#8,
                     stopped := false }
    line := List.replicate n 0xEE#8 }

/-! ### Well-formedness -/

theorem test_marker_literal_is_refused : (Instr.lit 0xC0#8).wellFormed = false := by decide
theorem test_largest_literal_is_allowed : (Instr.lit 0xBF#8).wellFormed = true := by decide
theorem test_zero_run_is_allowed : (Instr.run 0#6 0xFF#8).wellFormed = true := by decide

/-! ### Decoding: each word written out from spec/30_encoding.md R100, R101 and R107 -/

theorem test_decode_lit_low : decodeTableWord 8 0b00000111 = some (.lit 0x07#8) := by decide
theorem test_decode_lit_high : decodeTableWord 8 0b10111111 = some (.lit 0xBF#8) := by decide
theorem test_decode_run : decodeTableWord 16 0b0000011111000011 = some (.run 3#6 0x07#8) := by decide
theorem test_decode_nop : decodeTableWord 32 0x00 = some .nop := by decide
theorem test_decode_decode : decodeTableWord 32 0x01 = some .decode := by decide
theorem test_decode_probe : decodeTableWord 32 0x02 = some .probe := by decide
theorem test_decode_loadIndexed : decodeTableWord 32 0x03 = some .loadIndexed := by decide
theorem test_decode_loadTruecolor : decodeTableWord 32 0x04 = some .loadTruecolor := by decide
theorem test_decode_readIndex : decodeTableWord 32 0x05 = some .readIndex := by decide
theorem test_decode_readPalette : decodeTableWord 32 0x06 = some .readPalette := by decide
theorem test_decode_readPixels : decodeTableWord 32 0x07 = some .readPixels := by decide
theorem test_decode_clear : decodeTableWord 32 0x08 = some .clear := by decide
theorem test_decode_rleDecode : decodeTableWord 32 0x10 = some .rleDecode := by decide
theorem test_decode_rleEncode : decodeTableWord 32 0x11 = some .rleEncode := by decide
theorem test_decode_writePcx : decodeTableWord 32 0x20 = some .writePcx := by decide
theorem test_decode_writeIco : decodeTableWord 32 0x21 = some .writeIco := by decide
theorem test_decode_writeBmp : decodeTableWord 32 0x22 = some .writeBmp := by decide
theorem test_decode_writeBmpa : decodeTableWord 32 0x23 = some .writeBmpa := by decide
/-- R107 and R106: an unassigned opcode, and bits [31:8] set. -/
theorem test_decode_refuses :
    (decodeTableWord 32 0x12).isNone ∧ (decodeTableWord 32 0x24).isNone ∧ (decodeTableWord 32 0x101).isNone := by
  decide

/-- The listing example of R113: `BYTE 0xC1` and `REP 65, 2`. -/
theorem test_listing :
    assemble [.byte 0xC1, .rep 65 2, .lit 0xC0] = none ∧
    assemble [.byte 0xC1, .rep 65 2] = some (bytes [0xC1, 0xC1, 0xFF, 2, 2, 2]) := by decide

/-! ### Instructions -/

/-- R180: a LIT at x = S − 1 fills the last position. -/
theorem test_lit_last_position :
    nextIs (exec (.lit 0x02#8) (inBody 2 1 [])) (fun t => t.line == bytes [0xEE, 0x02]) = true := by decide

/-- R181: `C3 07` gives three bytes 07; V-RUN-4's clipping of 63 copies to the scanline. -/
theorem test_run_copies :
    nextIs (exec (.run 3#6 0x07#8) (inBody 4 0 [])) (fun t => t.line == bytes [7, 7, 7, 0xEE]) = true := by decide

theorem test_run_stops_at_line_end :
    nextIs (exec (.run 63#6 0x2A#8) (inBody 2 0 [])) (fun t => t.line == bytes [0x2A, 0x2A]) = true := by decide

/-- R353: after an error, NOP gives STATUS = 0x00000002. -/
theorem test_nop :
    nextIs (exec .nop { s0 with status := Status.failure .noImage }) (fun t => t.status.toWord == 0x2#32) = true := by
  decide

/-- V-DEC-1. -/
theorem test_decode_command :
    nextIs (exec .decode (feed (hdr22 ++ bytes [1, 2, 4, 5, 1]) s0)) (fun t =>
      t.image.idx == bytes [1, 2, 4, 5] && t.inPos == 133#32 && t.res2.toWord == 0x00010002#32) = true := by decide

/-- V-PLN-1: the run crosses from red into green. -/
theorem test_decode_planar :
    nextIs (exec .decode (feed (header 8 0 0 1 0 3 2 ++ bytes [0x10, 0xC2, 0x20, 0x30, 0x40, 0x50, 0x60]) s0))
      (fun t => t.image.pix ==
        [⟨0x10#8, 0x20#8, 0x40#8, 0xFF#8⟩, ⟨0x20#8, 0x30#8, 0x50#8, 0xFF#8⟩] && t.inPos == 134#32) = true := by
  decide

/-- V-HDR-1. -/
theorem test_probe :
    nextIs (exec .probe (feed (hdr22.take 68) s0)) (fun t =>
      t.status.toWord == 0x2#32 && t.inPos == 68#32 && t.res0 == 2#32 && t.res1 == 2#32
        && t.res2.toWord == 0x00010002#32) = true := by decide

/-- V-HDR-8: W and H negative. -/
theorem test_probe_negative_size :
    nextIs (exec .probe (feed (header 8 10 10 0 0 1 2) s0)) (fun t => t.status.toWord == 0x336#32) = true := by
  decide

/-- V-CMD-9. -/
theorem test_loadIndexed :
    nextIs (exec .loadIndexed (geometry 1 1 1
        (feed (bytes [0x10, 0x20, 0x30] ++ List.replicate 765 0#8 ++ [0#8]) s0))) (fun t =>
      t.inPos == 769#32 && t.image.pal.take 2 == [⟨0x10#8, 0x20#8, 0x30#8, 0#8⟩, ⟨0#8, 0#8, 0#8, 0xFF#8⟩]
        && t.image.pix == [⟨0x10#8, 0x20#8, 0x30#8, 0#8⟩]) = true := by decide

/-- V-CMD-8. -/
theorem test_loadIndexed_zero_area :
    nextIs (exec .loadIndexed (geometry 0 1 1 s0)) (fun t => t.status.toWord == 0x336#32) = true := by decide

/-- R357's worked example. -/
theorem test_loadTruecolor :
    nextIs (exec .loadTruecolor (geometry 2 1 2 (feed (bytes [0xFF, 0, 0, 0xFF, 0, 0xFF, 0, 0x80]) s0)))
      (fun t => t.image.pix == image21.pix && t.inPos == 8#32) = true := by decide

/-- V-CMD-6. -/
theorem test_loadTruecolor_short :
    nextIs (exec .loadTruecolor (geometry 2 1 2 (feed (bytes [0xFF, 0, 0, 0xFF, 0, 0xFF, 0]) s0)))
      (fun t => t.status.toWord == 0x226#32 && t.inPos == 7#32) = true := by decide

/-- V-DEC-1, then READ_INDEX. -/
theorem test_readIndex :
    nextIs (exec .readIndex (holding image22 s0)) (fun t => t.ports.output == bytes [1, 2, 4, 5]) = true := by decide

/-- V-CMD-4. -/
theorem test_readIndex_wrong_repr :
    nextIs (exec .readIndex (holding image21 s0)) (fun t => t.status.toWord == 0x346#32) = true := by decide

/-- V-DEC-1, then READ_PALETTE. -/
theorem test_readPalette :
    nextIs (exec .readPalette (holding image22 s0)) (fun t =>
      t.outLen == 1024#32 && t.ports.output.take 8 == bytes [0, 0, 0, 0, 0x11, 0x11, 0x11, 0xFF]) = true := by decide

/-- V-DEC-1, then READ_PIXELS. -/
theorem test_readPixels :
    nextIs (exec .readPixels (holding image22 s0)) (fun t =>
      t.ports.output.take 8 == bytes [0x11, 0x11, 0x11, 0xFF, 0x22, 0x22, 0x22, 0xFF]) = true := by decide

/-- V-CMD-3. -/
theorem test_clear :
    nextIs (exec .clear (holding image22 s0)) (fun t =>
      t.status.toWord == 0x2#32 && t.image.repr == .absent && t.image.width == 0#17) = true := by decide

/-- V-RUN-6: a run past the end of the scanline, under clip. -/
theorem test_rleDecode :
    nextIs (exec .rleDecode (args 4 2 0xEE (feed (bytes [0xC3, 7, 0x41, 0xC5, 0xC0, 9]) s0))) (fun t =>
      t.ports.output == bytes [7, 7, 7, 0x41, 0xC0, 0xC0, 0xC0, 0xC0] && t.inPos == 5#32) = true := by decide

/-- V-RUN-8: the same under carry, three scanlines. -/
theorem test_rleDecode_carry :
    nextIs (exec .rleDecode (args 4 3 0xEE (feed (bytes [0xC3, 7, 0x41, 0xC5, 0xC0, 9])
        { s0 with cfg := { testCfg with lineRunPolicy := .carry } }))) (fun t =>
      t.ports.output == bytes [7, 7, 7, 0x41, 0xC0, 0xC0, 0xC0, 0xC0, 0xC0, 9, 0xEE, 0xEE]) = true := by decide

/-- V-ENC-13. -/
theorem test_rleEncode :
    nextIs (exec .rleEncode (args 5 5 0 (feed (bytes [5, 5, 5, 0xC7, 1, 9]) s0))) (fun t =>
      t.ports.output == bytes [0xC3, 5, 0xC1, 0xC7, 1] && t.inPos == 5#32) = true := by decide

/-- V-ENC-11: the chunk boundary stops a run. -/
theorem test_rleEncode_chunk :
    rleEncode (bytes [0, 0, 0xBF, 0xC0, 0x41, 0x41, 0x41, 0x41]) 4 =
      bytes [0, 0, 0xBF, 0xC1, 0xC0, 0xC4, 0x41] := by decide

/-- V-PCX-1 and V-HDR-3. -/
theorem test_writePcx :
    nextIs (exec .writePcx (holding image22 s0)) (fun t =>
      t.ports.output.take 12 == bytes [0x0A, 5, 1, 8, 0, 0, 0, 0, 1, 0, 1, 0]
        && (t.ports.output.drop 64).take 6 == bytes [0, 1, 2, 0, 1, 0]
        && (t.ports.output.drop 128).take 5 == bytes [1, 2, 4, 5, 0x0C] && t.outLen == 901#32) = true := by decide

/-- V-ICO-1, all but its two headers. -/
theorem test_writeIco :
    nextIs (exec .writeIco (holding image22 s0)) (fun t =>
      t.ports.output.take 22 ==
        bytes [0, 0, 1, 0, 1, 0, 2, 2, 0, 0, 1, 0, 0x20, 0, 0x40, 0, 0, 0, 0x16, 0, 0, 0]
        && t.ports.output.drop 62 == bytes [0x44, 0x44, 0x44, 0xFF, 0x55, 0x55, 0x55, 0xFF, 0x11, 0x11, 0x11,
          0xFF, 0x22, 0x22, 0x22, 0xFF, 0, 0, 0, 0, 0, 0, 0, 0]) = true := by decide

/-- V-ICO-2. -/
theorem test_writeIco_oversize :
    nextIs (exec .writeIco (holding (plain .truecolor 257 1) s0)) (fun t =>
      t.status.toWord == 0x636#32 && t.outLen == 0#32) = true := by decide

/-- V-BMP-1. -/
theorem test_writeBmp :
    nextIs (exec .writeBmp (holding image22 s0)) (fun t =>
      t.ports.output.take 14 == bytes [0x42, 0x4D, 0x46, 0, 0, 0, 0, 0, 0, 0, 0x36, 0, 0, 0]
        && (t.ports.output.drop 54).take 8 == bytes [0x44, 0x44, 0x44, 0xFF, 0x55, 0x55, 0x55, 0xFF]) = true := by
  decide

/-- Program P3's WRITE_BMPA output: size, masks and pixels. -/
theorem test_writeBmpa :
    nextIs (exec .writeBmpa (holding image21 s0)) (fun t =>
      t.outLen == 130#32 && (t.ports.output.drop 0x36).take 20 == bytes [0, 0, 0xFF, 0, 0, 0xFF, 0, 0, 0xFF, 0, 0,
        0, 0, 0, 0, 0xFF, 0x42, 0x47, 0x52, 0x73]
        && t.ports.output.drop 0x7A == bytes [0, 0, 0xFF, 0xFF, 0, 0xFF, 0, 0x80]) = true := by decide

/-! ### The whole machine -/

/-- The next step after reset runs the word placed for it. -/
theorem test_fetch_word_runs :
    nextIs (step (State.reset.withFetchWord 16 0x07C3)) (fun t => t.line == bytes [7, 7, 7] ++ List.replicate 61 0#8) ∧
    nextIs (step (State.reset.withFetchWord 32 0x00)) (fun t => t.status.toWord == 0x2#32) ∧
    nextIs (step (State.reset.withFetchWord 32 0x22)) (fun t => t.status.toWord == 0x246#32) := by decide

/-- V-CMD-1 and P4: the unassigned opcode 0x99, and a CMD write with bits [31:8] set. -/
theorem test_unassigned_opcode :
    nextIs (sys2run 2 [.write 32 0x04 0x99#32]) (fun t => t.status.toWord == 0x146#32) ∧
    nextIs (sys2run 2 [.write 32 0x04 0x199#32]) (fun t => t.status.toWord == 0#32) := by decide

/-- R445, R446 and R71. -/
theorem test_hazards :
    faultIs (sys2run 2 [.write 32 0x04 0#32, .write 32 0x04 0#32]) .cmdWhileBusy ∧
    faultIs (sys2run 2 [.write 32 0x04 0#32, .write 32 0x28 0#32]) .operandWhileBusy ∧
    refusedIs (sys2run 1 [.read 16 0x00]) .accessWidth := by decide

/-- R442: a reset during a command. -/
theorem test_reset_while_busy :
    nextIs (sys2run 2 [.write 32 0x04 0#32, .reset]) (fun t =>
      t.status.toWord == 0#32 && t.phase == .idle && t.image.repr == .absent) := by decide

/-- R16: a header with H = 65536 is rejected (log 14). R368: operands with H = 65536 pass, and the LOAD
goes on to its data. -/
theorem test_height_bound :
    nextIs (exec .probe (feed (header 8 0 0 0 65535 1 1) s0)) (fun t => t.status.toWord == 0x536#32) ∧
    nextIs (exec .loadIndexed (geometry 1 65536 1 s0)) (fun t => t.status.toWord == 0x226#32) := by decide

/-- R442: what a reset leaves in the host's port stays there (log 11). -/
theorem test_collect_after_reset :
    (hostCollect { s0 with collected := [1#8] }).collected = [1#8] := by decide

/-- R425: two instances, each block at its own base. -/
theorem test_platform_bases :
    (platformReset testCfg [0x1000, 0x1100]).map (fun s => busOffset s.cfg 0x1108) = [none, some 8] ∧
    coreAt (platformReset testCfg [0x1000, 0x1100]) 0x1108 = some 1 := by decide

/-- R60 and R146: HDR holds the 68 bytes once they are read, also while the tail is never answered. -/
theorem test_header_latched_before_tail :
    nextIs (exec .decode { feed hdr22 s0 with ports := { (feed hdr22 s0).ports with draws := [.ok, .never 0] } })
      (fun t => t.status.busy && t.hdr == parseHeader (hdr22.take 68)) := by decide

/-! ### Witnesses: the hypotheses of each statement, met together -/

/-- A state with these answers to the coming port requests. -/
def failing (ds : List PortDraw) (s : State) : State := { s with ports := { s.ports with draws := ds } }

/-- The states of the witnesses below. -/
def headerOnly : State := feed (hdr22.take 68) s0
def headerShort : State := feed (hdr22.take 67) s0
def headerTail : State := feed (hdr22.take 127) s0
def planarHeader : State := feed ((header 8 0 0 1 1 3 2).take 68) s0
def indexedStream : State := failing [.ok, .ok] (feed hdr22 s0)
def planarStream : State := feed (header 8 0 0 1 0 3 2) s0
def loadOne : State := geometry 1 1 1 (feed (List.replicate 769 0#8) s0)
def loadShort : State := args 1 769 0 (geometry 1 1 1 (feed (List.replicate 768 0#8) s0))
def loadShortPixels : State := geometry 1 1 1 (feed (bytes [1, 2, 3]) s0)
def loadPixels : State := geometry 2 1 2 (feed (bytes [1, 2, 3, 4, 5, 6, 7, 8]) s0)
def rleShortest : State := args 1 0 0 s0
def rleWidest : State := args (3 * 65535) 0 0 s0
def encodeTwo : State := args 1 2 0 (feed (bytes [1, 2]) s0)
def decodeBack : State := args 2 1 0 (feed (rleEncode (bytes [0xC7, 1]) 1) s0)
def decodeBackCarry : State :=
  { args 2 1 0 (feed (rleEncode (bytes [0xC7, 1]) 3) s0) with cfg := { testCfg with lineRunPolicy := .carry } }
def indexedImage : State := holding image22 s0
def truecolorImage : State := holding image21 s0
def paddedImage : State :=
  { holding { image22 with bpl := 3#16 } s0 with cfg := { testCfg with pcxLinePad := .padToBpl } }
def codeAhead : State := { inBody 2 1 (bytes [0xC3, 7, 9]) with host := [.grant .code] }
/-- A header and operands one line taller than R40 allows. -/
def tallHeader : State := feed ((header 8 0 0 0 65535 1 1).take 68) s0
def tallLoad : State := geometry 1 65536 1 s0
def tallData : State := feed (List.replicate (4 * 65536) 0#8) tallLoad
/-- Streams that a read fails in. -/
def bodyRead : State :=
  failing (List.replicate 5 PortDraw.ok ++ [.fail 1]) (feed (hdr22 ++ bytes [1, 2, 4]) s0)
def tableRead : State :=
  failing (List.replicate 8 PortDraw.ok ++ [.fail 0]) (feed (hdr22 ++ bytes [1, 2, 4, 5, 0x0C, 9]) s0)
def rawRead : State :=
  failing (List.replicate 4 PortDraw.ok ++ [.fail 0]) (args 2 2 0 (feed (bytes [1, 2, 3]) s0))
def zeroRunAhead : State := { inBody 2 1 (bytes [0xC0, 0x55]) with host := [.grant .code] }

/-- The core holds an accepted command. -/
def accepted (op : Byte) (s : State) : State := acceptCommand op s

theorem witness_EncodingRoundTrip :
    (Instr.lit 0xBF#8).WellFormed ∧ isCodeForm (.lit 0xBF#8) ∧ (Instr.run 0#6 0xFF#8).WellFormed ∧
      isCodeForm (.run 0#6 0xFF#8) ∧ Instr.writeBmpa.WellFormed ∧ ¬ isCodeForm .writeBmpa := by decide

theorem witness_CodeFormFromFirstByte : (0xBF#8).toNat < 0xC0 ∧ 0xC0 ≤ (0xC0#8).toNat := by decide

theorem witness_CommandWordExactMatch :
    256 ≤ (0x100#32).toNat ∧ (0xFF#32).toNat < 256 ∧ ∀ i : Instr, encode i ≠ .command 0xFF#32 := by
  refine ⟨by decide, by decide, fun i => ?_⟩
  cases i <;> simp [encode]

theorem witness_RepIsTheEncoding : 1 ≤ 1 ∧ 1 ≤ 1 := by decide

theorem witness_StepRunsAcceptedCommand :
    (accepted 0x01#8 s0).phase = .accepted 0x01#8 ∧ (accepted 0x01#8 s0).host = [] ∧
      decodeOpcode 0x01#8 = some .decode ∧ decodeOpcode 0x12#8 = none ∧
      { accepted 0x12#8 s0 with host := [.grant .command] }.host = .grant .command :: [] := by decide

theorem witness_StepRunsAcceptedCommand_words :
    decodeCommand ((0x01#8).setWidth 32) = .ok .decode ∧
      decodeCommand ((0x12#8).setWidth 32) = .error (.unknownOpcode 0x12#8) := ⟨rfl, rfl⟩

theorem witness_StepRunsFetchedCode :
    codeAhead.phase.engine.isSome = true ∧ codeAhead.host = .grant .code :: [] ∧ codeAhead.ports.draws = [] ∧
      codeAhead.ports.input = bytes [0xC3, 7, 9] := by decide

theorem witness_StepRunsFetchedCode_code :
    decodeCode (bytes [0xC3, 7, 9]) = .ok (.run 3#6 7#8, bytes [9]) ∧
      decodeCode (bytes [7]) = .ok (.lit 7#8, []) := ⟨rfl, rfl⟩

theorem witness_CodeGrainAgreesWithWholeCommand :
    (accepted 0x10#8 s0).phase = .accepted 0x10#8 ∧ decodeOpcode 0x10#8 = some .rleDecode := by decide

/-- Also for `RunWritesCopies`: x stands at the last position. -/
theorem witness_LitWritesOneCopy :
    (inBody 2 1 []).phase.engine.any (fun e => e.x == 1 && e.lineLen == 2) = true ∧ 2 ≤ lineBound ∧
      (inBody 2 1 []).line.length = 2 := by decide

theorem witness_ZeroRunIsTwoByteNop :
    zeroRunAhead.Inv ∧ zeroRunAhead.phase.engine.isSome = true ∧ zeroRunAhead.host = .grant .code :: [] ∧
      zeroRunAhead.ports.draws = [] ∧ zeroRunAhead.ports.input = 0xC0#8 :: 0x55#8 :: [] := by decide

theorem witness_LevelsDoNotMix :
    s0.phase.engine = none ∧ ¬ (inBody 2 1 []).Ready ∧ ¬ State.Ready { s0 with phase := .stalled } ∧
      ¬ isCodeForm .nop := by decide

theorem witness_NopSucceeds : s0.Ready ∧ (accepted 0x00#8 s0).Ready := by decide

theorem witness_ClearDropsTheImage :
    s0.Ready ∧ s0.image.repr = .absent ∧ Image.Ok s0.cfg s0.image ∧ indexedImage.Ready := by decide

/-- R143, on a header whose bytes all differ (its offsets): the fields it gives. -/
theorem test_header_fields :
    ((parseHeader ((List.range 68).map (BitVec.ofNat 8))).startX,
      (parseHeader ((List.range 68).map (BitVec.ofNat 8))).startY,
      (parseHeader ((List.range 68).map (BitVec.ofNat 8))).fb.drop 15) =
        (0x0504#16, 0x0706#16, [⟨61#8, 62#8, 63#8⟩]) := by decide

/-- The first clause asks for 68 bytes alone. -/
theorem witness_ProbeReportsGeometry :
    headerOnly.Ready ∧ headerOnly.PortsAnswer ∧ 68 ≤ headerOnly.ports.input.length ∧
      (streamHeader headerOnly).Accepted headerOnly.cfg := by decide

/-- H = 65536, one more than the bound. -/
theorem witness_ProbeReportsGeometry_height :
    tallHeader.Ready ∧ tallHeader.PortsAnswer ∧ 68 ≤ tallHeader.ports.input.length ∧
      headerError tallHeader.cfg (streamHeader tallHeader) = none ∧
      65535 < (streamHeader tallHeader).height := by decide

theorem witness_ShortHeaderAlwaysFails :
    headerShort.Ready ∧ headerShort.PortsAnswer ∧ headerShort.ports.input.length < 68 := by decide

/-- One header for each check, in order. -/
theorem witness_HeaderChecksInOrder :
    [header 4 0 0 1 1 2 2, header 8 0 0 1 1 2 2, header 8 5 0 4 1 1 2, header 8 0 0 1 1 1 1,
        header 8 0 0 65534 65535 1 65535].map
      (fun h => (headerError testCfg (streamHeader (feed h s0)), decide (68 ≤ (feed h s0).ports.input.length),
        decide (feed h s0).PortsAnswer, decide (feed h s0).Ready)) =
      [(some .bppNot8, true, true, true), (some .planesInvalid, true, true, true),
        (some .zeroArea, true, true, true), (some .bplLtWidth, true, true, true),
        (some .tooLarge, true, true, true)] := by decide

theorem witness_DecodeDegenerateImage :
    (headerOnly.Ready ∧ headerOnly.PortsAnswer ∧ headerOnly.ports.input.length = 68 ∧
      (streamHeader headerOnly).Accepted headerOnly.cfg) ∧
    (headerTail.Ready ∧ headerTail.PortsAnswer ∧ headerTail.ports.input.length = 127 ∧
      (streamHeader headerTail).Accepted headerTail.cfg) ∧
    (planarHeader.Ready ∧ planarHeader.PortsAnswer ∧ planarHeader.ports.input.length = 68 ∧
      (streamHeader planarHeader).Accepted planarHeader.cfg) := by decide

theorem witness_DecodeIndexedImage :
    indexedStream.Ready ∧ indexedStream.PortsAnswer ∧ 128 ≤ indexedStream.ports.input.length ∧
      (streamHeader indexedStream).Accepted indexedStream.cfg ∧ (streamHeader indexedStream).planes = 1#8 := by
  decide

theorem witness_DecodePlanarImage :
    planarStream.Ready ∧ planarStream.PortsAnswer ∧ 128 ≤ planarStream.ports.input.length ∧
      (streamHeader planarStream).Accepted planarStream.cfg ∧ (streamHeader planarStream).planes = 3#8 := by decide

theorem witness_FallbackPaletteEntries : (parseHeader hdr22).fb.length = 16 := by decide

theorem witness_AlphaForcing :
    [Sample.zero, black][1]? = some black ∧
      nextIs (exec .decode (feed (hdr22.take 68) s0)) (fun t =>
        t.image.repr == .indexed && t.image.idx != s0.image.idx) = true := by decide

theorem witness_LoadIndexedBuildsImage :
    loadOne.Ready ∧ loadOne.PortsAnswer ∧ LoadAccepted loadOne ∧
      768 + loadOne.pWidth.toNat * loadOne.pHeight.toNat ≤ loadOne.ports.input.length := by decide

theorem witness_LoadTruecolorBuildsImage :
    loadPixels.Ready ∧ loadPixels.PortsAnswer ∧ LoadAccepted loadPixels ∧
      4 * (loadPixels.pWidth.toNat * loadPixels.pHeight.toNat) ≤ loadPixels.ports.input.length := by decide

theorem witness_LoadValidationInOrder :
    loadError (geometry 0 1 1 s0) = some .zeroArea ∧ loadError (geometry 2 1 1 s0) = some .bplLtWidth ∧
      loadError (geometry 65535 2 65535 s0) = some .tooLarge := by decide

theorem witness_ShortDataFails :
    (loadShort.Ready ∧ loadShort.PortsAnswer ∧ LoadAccepted loadShort ∧
      loadShort.ports.input.length < 768 + loadShort.pWidth.toNat * loadShort.pHeight.toNat ∧
      1 ≤ loadShort.arg0.toNat ∧ loadShort.ports.input.length < loadShort.arg1.toNat) ∧
    (loadShortPixels.Ready ∧ loadShortPixels.PortsAnswer ∧ LoadAccepted loadShortPixels ∧
      loadShortPixels.ports.input.length <
        4 * (loadShortPixels.pWidth.toNat * loadShortPixels.pHeight.toNat)) ∧
    (tallLoad.Ready ∧ tallLoad.PortsAnswer ∧ loadError tallLoad = none ∧ 65535 < tallLoad.pHeight.toNat) := by
  decide

/-- The data of a LOAD one line too tall. -/
theorem witness_ShortDataFails_height :
    tallData.Ready ∧ tallData.PortsAnswer ∧ loadError tallData = none ∧ 65535 < tallData.pHeight.toNat ∧
      768 + tallData.pWidth.toNat * tallData.pHeight.toNat ≤ tallData.ports.input.length ∧
      4 * (tallData.pWidth.toNat * tallData.pHeight.toNat) ≤ tallData.ports.input.length := by
  have hl : tallData.ports.input.length = 4 * 65536 := List.length_replicate
  have hw : tallData.pWidth.toNat = 1 := rfl
  have hh : tallData.pHeight.toNat = 65536 := rfl
  have hd : tallData.ports.draws = [] := rfl
  refine ⟨rfl, by simp [State.PortsAnswer, hd], ?_, ?_⟩
  · show loadError tallLoad = none
    decide
  · rw [hl, hw, hh]; omega

theorem witness_RleDecodeOutputsScanlines :
    rleShortest.Ready ∧ rleShortest.PortsAnswer ∧ rleShortest.arg0.toNat = 1 ∧ rleWidest.Ready ∧
      rleWidest.PortsAnswer ∧ rleWidest.arg0.toNat = 3 * 65535 := by decide

theorem witness_RleEncodeOutputsCodes :
    encodeTwo.Ready ∧ encodeTwo.PortsAnswer ∧ 1 ≤ encodeTwo.arg0.toNat ∧
      encodeTwo.arg1.toNat ≤ encodeTwo.ports.input.length := by decide

/-- A run the chunk stops, a run the next byte stops, and a code. -/
theorem witness_EncoderOutputIsCanonical :
    rleEncode (bytes [5, 5, 5, 7]) 2 = bytes [5, 5, 5, 7] ∧ bytes [5, 5, 5, 7] =
        [(2, 5#8), (1, 5#8), (1, 7#8)].flatMap (fun r => List.replicate r.1 r.2) ∧
      [(2, 5#8), (1, 5#8), (1, 7#8)] = [(2, 5#8)] ++ (1, 5#8) :: [(1, 7#8)] ∧
      1 < min (4 - 2) (min 63 (2 - 2 % 2)) ∧ Instr.run 1#6 0xC0#8 ∈ [Instr.run 1#6 0xC0#8] ∧
      rleEncode [0xC0#8] 1 = [Instr.run 1#6 0xC0#8].flatMap codeBytes := by decide

theorem witness_EncoderOutputSize : 1 ≤ 1 ∧ ∀ v ∈ bytes [0xC0, 0xFF], isMarker v = true := by decide

theorem witness_DecodeOfEncodeIsIdentity :
    decodeBack.Ready ∧ decodeBack.PortsAnswer ∧ 1 ≤ decodeBack.arg0.toNat ∧ decodeBack.arg0.toNat ≤ 3 * 65535 ∧
      (bytes [0xC7, 1]).length = decodeBack.arg0.toNat * decodeBack.arg1.toNat ∧
      decodeBack.arg0.toNat % 1 = 0 ∧ decodeBack.ports.input = rleEncode (bytes [0xC7, 1]) 1 := by decide

theorem witness_DecodeOfEncodeIsIdentity_carry :
    decodeBackCarry.Ready ∧ decodeBackCarry.PortsAnswer ∧ decodeBackCarry.arg0.toNat % 3 ≠ 0 ∧
      (bytes [0xC7, 1]).length = decodeBackCarry.arg0.toNat * decodeBackCarry.arg1.toNat ∧
      decodeBackCarry.cfg.lineRunPolicy = .carry ∧
      decodeBackCarry.ports.input = rleEncode (bytes [0xC7, 1]) 3 := by decide

/-- For READ_INDEX, READ_PALETTE and READ_PIXELS. -/
theorem witness_ReadIndexOutputsIndices :
    indexedImage.Ready ∧ indexedImage.PortsAnswer ∧ indexedImage.image.repr = .indexed ∧
      Memory.wf indexedImage.image ∧ truecolorImage.image.repr = .truecolor ∧ Memory.wf truecolorImage.image := by
  decide

theorem witness_CommandMisuseEndsAtOnce :
    s0.Ready ∧ s0.image.repr = .absent ∧ truecolorImage.Ready ∧ truecolorImage.image.repr = .truecolor ∧
      (args 0 1 0 s0).arg0.toNat < 1 ∧ 3 * 65535 < (args (3 * 65535 + 1) 1 0 s0).arg0.toNat := by decide

/-- For WRITE_PCX and the two round trips. -/
theorem witness_WritePcxOutputsFile :
    indexedImage.Ready ∧ indexedImage.PortsAnswer ∧ indexedImage.cfg.Ok ∧
      Image.Ok indexedImage.cfg indexedImage.image ∧ indexedImage.image.repr = .indexed ∧
      indexedImage.image.h ≤ 65536 ∧ indexedImage.image.bplNat = indexedImage.image.w ∧
      truecolorImage.cfg.Ok ∧ Image.Ok truecolorImage.cfg truecolorImage.image ∧
      truecolorImage.image.repr = .truecolor ∧ truecolorImage.image.bplNat = truecolorImage.image.w := by decide

theorem witness_RoundTrip_padded :
    paddedImage.Ready ∧ paddedImage.PortsAnswer ∧ paddedImage.cfg.Ok ∧
      Image.Ok paddedImage.cfg paddedImage.image ∧ paddedImage.image.repr = .indexed ∧
      paddedImage.image.bplNat ≠ paddedImage.image.w ∧ paddedImage.cfg.pcxLinePad = .padToBpl := by decide

theorem witness_BodySequenceLayout :
    Memory.wf { image22 with bpl := 3#16 } ∧ Image.w { image22 with bpl := 3#16 } ≤ 3 ∧ Memory.wf image21 := by decide

/-- The oversize clause also with a port that would fail. -/
theorem witness_IconSizeLimit :
    (failing [.fail 0] (holding (plain .truecolor 257 1) s0)).Ready ∧ s0.PortsAnswer ∧
    Memory.wf (plain .truecolor 257 1) ∧ 256 < (plain .truecolor 257 1).w ∧ 256 < (plain .truecolor 1 257).h ∧
      Memory.wf (plain .indexed 256 1) ∧ (plain .indexed 256 1).w ≤ 256 := by decide

theorem witness_WriteIcoTruecolorForm :
    Memory.wf (plain .indexed 11 31) ∧ (plain .indexed 11 31).w * (plain .indexed 11 31).h < 342 ∧
      (plain .indexed 11 31).h ≤ 256 ∧ Memory.wf image21 := by decide

theorem witness_WriteIcoIndexedForm :
    Memory.wf (plain .indexed 19 18) ∧ 342 ≤ (plain .indexed 19 18).w * (plain .indexed 19 18).h := by decide

/-- For both bitmaps. -/
theorem witness_WriteBmpOutputsFile : image21.repr ≠ .absent ∧ Memory.wf image21 ∧ image21.w = 2 := by decide

/-- Also for `ErrorsByCommand`. -/
theorem witness_ErrorEntryIsPrecise :
    nextIs (exec .readIndex s0) (fun t => t.status.error == some .noImage) ∧ ¬ isCodeForm .readIndex ∧
      nextIs (exec .rleDecode (failing [.fail 1] (args 1 1 0 (feed [1#8] s0)))) (fun t =>
        t.status.error == some .accessIn) ∧
      nextIs (execUnknownOpcode s0) (fun t => t.status.error == some .unknownOpcode) := by decide

/-- For READ_PALETTE, READ_INDEX and PROBE. -/
theorem witness_PortFailures :
    (failing [.fail 2] indexedImage).Ready ∧ Memory.wf (failing [.fail 2] indexedImage).image ∧
      (failing [.fail 2] indexedImage).ports.draws = List.replicate 0 .ok ++ .fail 2 :: [] ∧
      (failing [.fail 2] indexedImage).image.pal[0]? = some ⟨0#8, 0#8, 0#8, 0#8⟩ ∧
      (failing [.ok, .fail 4] indexedImage).ports.draws = List.replicate 1 .ok ++ .fail 4 :: [] ∧
      indexedImage.image.repr = .indexed ∧ (failing [.never 3] indexedImage).ports.draws = .never 3 :: [] ∧
      (failing [.fail 68] s0).ports.draws = .fail 68 :: [] := by decide

/-- A failing read at the last position of DECODE's body, and at the table's second byte. -/
theorem witness_PortFailures_decode :
    (bodyRead.Ready ∧ (streamHeader bodyRead).Accepted bodyRead.cfg ∧ 128 + 3 ≤ bodyRead.ports.input.length ∧
      3 < (streamHeader bodyRead).planes.toNat * (streamHeader bodyRead).bpl.toNat
        * (streamHeader bodyRead).height.toNat ∧
      literal ((bodyRead.ports.input.drop 128).take 3) ∧
      bodyRead.ports.draws = List.replicate (2 + 3) .ok ++ .fail 1 :: []) ∧
    (tableRead.Ready ∧ (streamHeader tableRead).Accepted tableRead.cfg ∧ (streamHeader tableRead).planes = 1#8 ∧
      4 = (streamHeader tableRead).bpl.toNat * (streamHeader tableRead).height.toNat ∧
      literal ((tableRead.ports.input.drop 128).take 4) ∧ tableRead.ports.input[128 + 4]? = some 0x0C#8 ∧
      129 + 4 + 1 ≤ tableRead.ports.input.length ∧
      tableRead.ports.draws = List.replicate (3 + 4 + 1) .ok ++ .fail 0 :: []) := by decide

/-- A failing read in RLE_DECODE's second scanline; and both failures occur. -/
theorem witness_PortFailures_rleDecode :
    rawRead.Ready ∧ 1 ≤ rawRead.arg0.toNat ∧ rawRead.arg0.toNat ≤ 3 * 65535 ∧ 1 < rawRead.arg1.toNat ∧
      1 < rawRead.arg0.toNat ∧ 1 * rawRead.arg0.toNat + 1 ≤ rawRead.ports.input.length ∧
      literal (rawRead.ports.input.take (1 * rawRead.arg0.toNat + 1)) ∧
      rawRead.ports.draws = List.replicate (1 * (rawRead.arg0.toNat + 1) + 1) .ok ++ .fail 0 :: [] ∧
      nextIs (exec .rleDecode rawRead) (fun t => t.status.error == some .accessIn) ∧
      nextIs (exec .rleDecode (failing [.ok, .ok, .fail 1] rawRead)) (fun t =>
        t.status.error == some .accessOut) := by decide

theorem witness_OnlyBuildersReplaceTheImage :
    nextIs (exec .clear (holding image22 s0)) (fun t => t.image.repr != image22.repr) ∧
      nextIs (exec .probe (feed (hdr22.take 68) s0)) (fun t => t.res0 != s0.res0) := by decide

theorem witness_EveryCommandEnds :
    ¬ isCodeForm .writeIco ∧ (holding image22 s0).Ready ∧ Memory.wf image22 ∧
      (failing [.ok, .fail 3] s0).NoSilence := by decide

theorem witness_CommandsIgnoreScratch :
    s0.phase = .idle ∧ (failing [.ok, .fail 3] s0).NoSilence ∧
      ¬ isCodeForm .rleDecode := by decide

theorem witness_StepKeepsInvariant :
    s0.Inv ∧ nextIs (step { s0 with host := [.write 32 0x04 0#32] }) (fun t => t.status.busy) ∧
      State.Inv (inBody 2 1 []) ∧
      nextIs (step { inBody 2 1 [] with host := [.grant .code] }) (fun t => t.status.done) := by decide

theorem witness_PlatformReset : { s0 with host := [.reset, .collect] }.host = .reset :: [.collect] := by decide

theorem witness_OperandRegistersReadBack :
    s0.status.busy = false ∧ (Reg.pWidth, 17) ∈ [(Reg.pWidth, 17), (.arg2, 8)] ∧
      (holding image22 s0).status.busy = false := by decide

theorem witness_OtherOffsets :
    0xFC % 4 = 0 ∧ 0xFC ∉ [0x04, 0x1C, 0x20, 0x24, 0x28, 0x2C, 0x30] ∧ 0x48 ≤ 0xFC ∧ 0xFC < 0x100 ∧ 2 % 4 ≠ 0 ∧
      16 ≠ 32 := by decide

theorem witness_CmdWrite :
    s0.status.busy = false ∧ (0xFF#32).toNat < 256 ∧ 256 ≤ (0x100#32).toNat := by decide

theorem witness_WritesWhileBusyFault : (accepted 0x00#8 s0).status.busy = true := by decide

end Sys2Proof.Tests
end

section
/-! PROOFS. The host register file (spec/10_state.md R34 to R53): which register an offset reaches, what an
access does there, and the statements about the register map. -/

namespace Sys2Proof.Machine

open Host

/-! ### The register map -/

@[simp] theorem regAt_offset (r : Reg) : regAt r.offset = r := by cases r <;> rfl

/-- Every row of the map stands at its register's offset. -/
theorem regMap_offset : ∀ row ∈ regMap, row.1 = row.2.offset := by decide

/-- An offset that reaches no reserved register is that register's own. -/
theorem offset_regAt {offset : Nat} (h : regAt offset ≠ .reserved) : (regAt offset).offset = offset := by
  unfold regAt at h ⊢
  cases hl : regMap.lookup offset with
  | none => simp [hl] at h
  | some r =>
    obtain ⟨before, after, hmap, -⟩ := List.lookup_eq_some_iff.mp hl
    exact (regMap_offset (offset, r) (by simp [hmap])).symm

theorem regAt_reserved {offset : Nat} (h : 0x48 ≤ offset) : regAt offset = .reserved := by
  by_contra hr
  have ho := offset_regAt hr
  cases hq : regAt offset <;> simp [hq, Reg.offset] at ho hr <;> omega

/-! ### Host accesses (spec/20_memory.md R71) -/

theorem accessRefusal_eq_none {width offset : Nat} :
    accessRefusal width offset = none ↔ width = 32 ∧ offset % 4 = 0 ∧ offset ≤ 0xFC := by
  unfold accessRefusal; split_ifs <;> simp <;> omega

theorem hostRead_of_access {width offset : Nat} (h : accessRefusal width offset = none) (s : State) :
    hostRead width offset s = .next (readAt (regAt offset) s) := by
  simp [hostRead, h]

theorem hostWrite_of_access {width offset : Nat} (h : accessRefusal width offset = none) (v : Word) (s : State) :
    hostWrite width offset v s = writeAt (regAt offset) v s := by
  simp [hostWrite, h]

theorem host_access_refused {width offset : Nat} (h : accessRefusal width offset ≠ none) (v : Word) (s : State) :
    (∃ why, hostRead width offset s = .refused why) ∧ ∃ why, hostWrite width offset v s = .refused why := by
  obtain ⟨why, hwhy⟩ := Option.ne_none_iff_exists'.mp h
  exact ⟨⟨why, by simp [hostRead, hwhy]⟩, ⟨why, by simp [hostWrite, hwhy]⟩⟩

@[simp] theorem accessRefusal_offset (r : Reg) : accessRefusal 32 r.offset = none := by cases r <;> rfl

theorem readAt_of_not_busy {s : State} (h : s.status.busy = false) (r : Reg) :
    readAt r s = { s with rdata := readReg s r } := by
  simp [readAt, h]

theorem readAt_of_steady {r : Reg} (h : r.steadyWhileBusy = true) (s : State) :
    readAt r s = { s with rdata := readReg s r } := by
  simp [readAt, h]

theorem writeReg_of_not_operand {r : Reg} (h : r.isOperand = false) (s : State) (v : Word) :
    writeReg s r v = s := by
  cases r <;> simp [Reg.isOperand] at h <;> rfl

theorem writeAt_of_readOnly {r : Reg} (hc : r ≠ .cmd) (ho : r.isOperand = false) (v : Word) (s : State) :
    writeAt r v s = .next s := by
  simp [writeAt, hc, ho, writeReg_of_not_operand ho]

theorem writeAt_of_operand {r : Reg} (ho : r.isOperand = true) {s : State} (hb : s.status.busy = false)
    (v : Word) : writeAt r v s = .next (writeReg s r v) := by
  have hc : r ≠ .cmd := by rintro rfl; simp [Reg.isOperand] at ho
  simp [writeAt, hc, hb]

@[simp] theorem writeReg_image (s : State) (r : Reg) (v : Word) : (writeReg s r v).image = s.image := by
  cases r <;> rfl
@[simp] theorem writeReg_ports (s : State) (r : Reg) (v : Word) : (writeReg s r v).ports = s.ports := by
  cases r <;> rfl
@[simp] theorem writeReg_phase (s : State) (r : Reg) (v : Word) : (writeReg s r v).phase = s.phase := by
  cases r <;> rfl
@[simp] theorem writeReg_host (s : State) (r : Reg) (v : Word) : (writeReg s r v).host = s.host := by
  cases r <;> rfl
@[simp] theorem writeReg_status (s : State) (r : Reg) (v : Word) : (writeReg s r v).status = s.status := by
  cases r <;> rfl
@[simp] theorem writeReg_cfg (s : State) (r : Reg) (v : Word) : (writeReg s r v).cfg = s.cfg := by
  cases r <;> rfl
@[simp] theorem writeReg_inPos (s : State) (r : Reg) (v : Word) : (writeReg s r v).inPos = s.inPos := by
  cases r <;> rfl
@[simp] theorem writeReg_outLen (s : State) (r : Reg) (v : Word) : (writeReg s r v).outLen = s.outLen := by
  cases r <;> rfl

/-- A write to one register leaves what every other one reads. -/
theorem readReg_writeReg_other {q r : Reg} (h : q ≠ r) (s : State) (v : Word) :
    readReg (writeReg s r v) q = readReg s q := by
  cases r with
  | pWidth | pHeight | pBpl | arg0 | arg1 | arg2 => cases q <;> simp [readReg, writeReg] at h ⊢
  | _ => rfl

/-! ### The command word (spec/30_encoding.md R106) -/

theorem commandMbz_eq_zero {v : Word} : commandMbz v = 0#24 ↔ v.toNat < 256 := by
  rw [← BitVec.toNat_inj]
  simp [commandMbz, BitVec.extractLsb'_toNat, Nat.shiftRight_eq_div_pow]
  omega

theorem writeCmd_of_command {s : State} (hb : s.status.busy = false) {v : Word} (hv : v.toNat < 256) :
    writeCmd v s = .next (acceptCommand (BitVec.ofNat 8 v.toNat) s) := by
  have hop : commandOpcode v = BitVec.ofNat 8 v.toNat := by
    apply BitVec.eq_of_toNat_eq
    simp [commandOpcode, BitVec.extractLsb'_toNat]
  simp [writeCmd, hb, commandMbz_eq_zero.mpr hv, hop]

theorem writeCmd_of_mbz {s : State} (hb : s.status.busy = false) {v : Word} (hv : 256 ≤ v.toNat) :
    writeCmd v s = .next s := by
  have hm : commandMbz v ≠ 0#24 := fun h => absurd (commandMbz_eq_zero.mp h) (by omega)
  simp [writeCmd, hb, hm]

/-! ### RES2 (spec/10_state.md R52) -/

theorem bit_getLsbD_zero (b : Bool) : (bit b).getLsbD 0 = b := by cases b <;> rfl

/-- The word bit by bit: its fields from the lowest up, and nothing above them. -/
theorem res2_toWord_getLsbD (r : Res2) (i : Nat) :
    r.toWord.getLsbD i =
      if i < 16 then r.bpl.getLsbD i
      else if i - 16 < 8 then r.planes.getLsbD (i - 16)
      else if i - 16 - 8 < 1 then (bit r.degenerate).getLsbD (i - 16 - 8)
      else if i - 16 - 8 - 1 < 1 then (bit r.explicitPal).getLsbD (i - 16 - 8 - 1)
      else if i - 16 - 8 - 1 - 1 < 1 then (bit r.truncated).getLsbD (i - 16 - 8 - 1 - 1)
      else false := by
  show BitVec.getLsbD (w := 5 + 1 + 1 + 1 + 8 + 16) (0#5 ++ bit r.truncated ++ bit r.explicitPal ++
    bit r.degenerate ++ r.planes ++ r.bpl) i = _
  simp only [BitVec.getLsbD_append, BitVec.getLsbD_zero, Bool.if_false_right]

theorem res2_toWord_bpl (r : Res2) : r.toWord.extractLsb' 0 16 = r.bpl := by
  apply BitVec.eq_of_getLsbD_eq
  intro i hi
  simp only [BitVec.getLsbD_extractLsb', res2_toWord_getLsbD, Nat.zero_add, hi, decide_true, Bool.true_and, if_true]

theorem res2_toWord_planes (r : Res2) : r.toWord.extractLsb' 16 8 = r.planes := by
  apply BitVec.eq_of_getLsbD_eq
  intro i hi
  have hge : ¬ 16 + i < 16 := by omega
  simp only [BitVec.getLsbD_extractLsb', res2_toWord_getLsbD, hge, Nat.add_sub_cancel_left, hi, decide_true,
    Bool.true_and, if_true, if_false]

theorem res2_toWord_high (r : Res2) : r.toWord.extractLsb' 27 5 = 0#5 := by
  apply BitVec.eq_of_getLsbD_eq
  intro i hi
  rw [BitVec.getLsbD_extractLsb', res2_toWord_getLsbD, if_neg (by omega), if_neg (by omega), if_neg (by omega),
    if_neg (by omega), if_neg (by omega), Bool.and_false, BitVec.getLsbD_zero]

theorem res2_toWord_flags (r : Res2) :
    r.toWord.getLsbD 24 = r.degenerate ∧ r.toWord.getLsbD 25 = r.explicitPal ∧
      r.toWord.getLsbD 26 = r.truncated := by
  simp only [res2_toWord_getLsbD]
  exact ⟨bit_getLsbD_zero _, bit_getLsbD_zero _, bit_getLsbD_zero _⟩

end Sys2Proof.Machine

namespace Sys2Proof.Proofs

open Sys2Proof Sys2Proof.Machine Host

/-- Settles O55: ID reads its constant while BUSY too, and is no writable register. -/
theorem idIsHardwired : Obligations.IdIsHardwired := by
  unfold Obligations.IdIsHardwired
  intro s v
  have ha : accessRefusal 32 0x00 = none := rfl
  have hr : regAt 0x00 = .id := rfl
  rw [hostRead_of_access ha, hostWrite_of_access ha, hr, readAt_of_steady rfl, writeAt_of_readOnly (by decide) rfl]
  exact ⟨rfl, rfl⟩

/-- Settles O57: an offset of a writable register is one of the seven listed, and none is reserved. -/
theorem otherOffsetsIgnoreWrites : Obligations.OtherOffsetsIgnoreWrites := by
  unfold Obligations.OtherOffsetsIgnoreWrites
  refine ⟨fun s offset v ha hle => ?_, fun s width offset v h => ?_⟩
  · have hacc : accessRefusal 32 offset = none := accessRefusal_eq_none.mpr ⟨rfl, ha, hle⟩
    refine ⟨fun hro => ?_, fun hres => ?_⟩
    · have hnot : regAt offset ≠ .cmd ∧ (regAt offset).isOperand = false := by
        have ho := offset_regAt (offset := offset)
        cases hq : regAt offset <;> simp [hq, Reg.offset, Reg.isOperand] at ho ⊢ <;> simp [← ho] at hro
      rw [hostWrite_of_access hacc, writeAt_of_readOnly hnot.1 hnot.2]
    · rw [hostRead_of_access hacc, regAt_reserved hres, readAt_of_steady rfl]
      rfl
  · exact host_access_refused (fun hn => by have := accessRefusal_eq_none.mp hn; omega) v s

/-- Settles O58: what an accepted CMD write does is `acceptCommand`. -/
theorem cmdWriteStartsACommand : Obligations.CmdWriteStartsACommand := by
  unfold Obligations.CmdWriteStartsACommand
  intro s v hb
  have hw : hostWrite 32 0x04 v s = writeCmd v s := rfl
  exact ⟨fun hv => hw.trans (writeCmd_of_command hb hv), fun hv => hw.trans (writeCmd_of_mbz hb hv)⟩

/-- Settles O56: the map's row at each offset, and each register's own width. -/
theorem operandRegistersReadBack : Obligations.OperandRegistersReadBack := by
  unfold Obligations.OperandRegistersReadBack
  refine ⟨fun s v r bits hb hr => ?_, fun s hb => ?_⟩
  · have hop : r.isOperand = true :=
      (by decide : ∀ row ∈ [(Reg.pWidth, 17), (.pHeight, 17), (.pBpl, 16), (.arg0, 32), (.arg1, 32), (.arg2, 8)],
        row.1.isOperand = true) (r, bits) hr
    refine ⟨writeReg s r v, ?_, ?_, fun q hq => readReg_writeReg_other hq s v, by simp⟩
    · rw [hostWrite_of_access (accessRefusal_offset r), regAt_offset, writeAt_of_operand hop hb]
    · simp only [List.mem_cons, Prod.mk.injEq, List.not_mem_nil, or_false] at hr
      rcases hr with ⟨rfl, rfl⟩ | ⟨rfl, rfl⟩ | ⟨rfl, rfl⟩ | ⟨rfl, rfl⟩ | ⟨rfl, rfl⟩ | ⟨rfl, rfl⟩ <;>
        simp [writeReg, readReg] <;> omega
  · have hread : ∀ offset, accessRefusal 32 offset = none →
        hostRead 32 offset s = .next { s with rdata := readReg s (regAt offset) } := fun offset ha => by
      rw [hostRead_of_access ha, readAt_of_not_busy hb]
    refine ⟨fun offset => readReg s (regAt offset), fun offset ho => hread offset ?_, rfl, ?_, ?_⟩
    · revert offset; decide
    · show s.image.repr.code.setWidth 32 = _
      cases s.image.repr <;> rfl
    · obtain ⟨hdeg, hexp, htrunc⟩ := res2_toWord_flags s.res2
      have hres : readReg s (regAt 0x44) = s.res2.toWord := rfl
      simp only [hres, res2_toWord_bpl, res2_toWord_planes, res2_toWord_high, hdeg, hexp, htrunc]
      simp [regAt, regMap, List.lookup, readReg]
      omega

end Sys2Proof.Proofs
end

section
/-! PROOFS. What a command can come to, as rules over its next states, and what a running body keeps
(spec/41_rle_decoder.md R184, spec/45_commands.md R350 to R352). -/

namespace Sys2Proof.Machine

open Host

/-! ### Rules over an outcome's next state -/

/-- Every next state of the outcome has the property; a fault or a refusal has none. -/
def Yields (o : Outcome State Fault Refusal) (P : State → Prop) : Prop := ∀ t, o = .next t → P t

section Rules
variable {α : Type} {s : State} {P : State → Prop}

@[simp] theorem yields_next : Yields (.next s) P ↔ P s := by simp [Yields]
@[simp] theorem yields_fault (why : Fault) : Yields (.fault why) P := by simp [Yields]
@[simp] theorem yields_refused (why : Refusal) : Yields (.refused why) P := by simp [Yields]

theorem Yields.mono {Q : State → Prop} {o : Outcome State Fault Refusal} (h : Yields o P) (hpq : ∀ t, P t → Q t) :
    Yields o Q := fun t ht => hpq t (h t ht)

/-- The property holds wherever a command in `s` is left by an error or by a request never answered. -/
def FailsInto (s : State) (P : State → Prop) : Prop :=
  (∀ e p, P (endCommand (Status.failure e) p s)) ∧ ∀ p, P (stallCommand p s)

theorem yields_runCommand {body : State → Outcome State Fault Refusal}
    (h : s.Ready → Yields (body (prologue s)) P) : Yields (runCommand s body) P := fun t ht =>
  have ⟨hready, hbody⟩ := runCommand_eq_next.mp ht
  h hready t hbody

theorem yields_conclude {r : Reply α} {effect : α → State → State} (hf : FailsInto s P)
    (hok : ∀ a p, r = .ok a p → P (endCommand Status.success p (effect a s))) :
    Yields (conclude s r effect) P := by
  cases r with
  | ok a p => exact yields_next.mpr (hok a p rfl)
  | error e p => exact yields_next.mpr (hf.1 e p)
  | stall p => exact yields_next.mpr (hf.2 p)
  | refuse why => exact yields_refused why

/-- The state of a body: its engine, its scanline and the ports it has reached. -/
def withBody (e : Engine) (line : List Byte) (p : Ports) (s : State) : State :=
  { s with phase := .body e, line := line, ports := p }

theorem yields_continueBody {r : Reply (Engine × List Byte)} (hf : FailsInto s P)
    (hmore : ∀ e line p, r = .ok (e, line) p → e.y < e.lines → P (withBody e line p s))
    (hdone : ∀ e line p, r = .ok (e, line) p → ¬ e.y < e.lines → Yields (finishBody s e p) P) :
    Yields (continueBody s r) P := by
  cases r with
  | ok b p =>
    obtain ⟨e, line⟩ := b
    by_cases hy : e.y < e.lines
    · simpa [continueBody, hy, withBody] using hmore e line p rfl hy
    · simpa [continueBody, hy] using hdone e line p rfl hy
  | error er p => exact yields_next.mpr (hf.1 er p)
  | stall p => exact yields_next.mpr (hf.2 p)
  | refuse why => exact yields_refused why

/-- The three ways a body ends: RLE_DECODE is complete, and DECODE commits the rows it staged. -/
theorem yields_finishBody {e : Engine} {p : Ports} (hf : FailsInto s P)
    (hraw : e.consumer = .raw → P (endCommand Status.success p s))
    (hplanar : e.consumer = .planar → P (endCommand Status.success p
      (setResults e.staged.w e.staged.h (bodyResults s e false)
        (commitImage { e.staged with repr := .truecolor } s))))
    (hindexed : e.consumer = .indexed → ∀ r q, resolvePalette s.hdr.fb p = .ok r q →
      P (endCommand Status.success q (setResults e.staged.w e.staged.h (bodyResults s e r.2)
        (commitImage
          { e.staged with repr := .indexed, pal := r.1, pix := depalettize r.1 e.staged.idx } s)))) :
    Yields (finishBody s e p) P := by
  unfold finishBody
  split
  · next h => exact yields_next.mpr (hraw h)
  · next h => exact yields_next.mpr (hplanar h)
  · next h => exact yields_conclude hf (hindexed h)

end Rules

/-! ### What the engine never changes -/

/-- The operands and the consumer of a body, and the geometry of its staged Image, are as before. -/
structure Engine.SameBody (e e' : Engine) : Prop where
  lineLen : e'.lineLen = e.lineLen
  lines : e'.lines = e.lines
  fill : e'.fill = e.fill
  consumer : e'.consumer = e.consumer
  width : e'.staged.width = e.staged.width
  height : e'.staged.height = e.staged.height
  bpl : e'.staged.bpl = e.staged.bpl

theorem Engine.SameBody.refl (e : Engine) : e.SameBody e := ⟨rfl, rfl, rfl, rfl, rfl, rfl, rfl⟩

theorem Engine.SameBody.trans {e e' e'' : Engine} (h : e.SameBody e') (h' : e'.SameBody e'') : e.SameBody e'' where
  lineLen := h'.lineLen.trans h.lineLen
  lines := h'.lines.trans h.lines
  fill := h'.fill.trans h.fill
  consumer := h'.consumer.trans h.consumer
  width := h'.width.trans h.width
  height := h'.height.trans h.height
  bpl := h'.bpl.trans h.bpl

theorem writeCopies_sameBody {e e' : Engine} {line line' : List Byte}
    (h : writeCopies e line = some (e', line')) : e.SameBody e' := by
  obtain ⟨_, _, he⟩ := Option.map_eq_some_iff.mp h
  obtain ⟨rfl, rfl⟩ := Prod.mk.inj he
  constructor <;> rfl

theorem writeCopies_y {e e' : Engine} {line line' : List Byte} (h : writeCopies e line = some (e', line')) :
    e'.y = e.y := by
  obtain ⟨_, _, he⟩ := Option.map_eq_some_iff.mp h
  obtain ⟨rfl, rfl⟩ := Prod.mk.inj he
  rfl

/-- The engine at the start of a scanline: at its first position, with what the policy leaves of a run. -/
def freshEngine (cfg : Config) (e : Engine) : Engine :=
  { e with x := 0, rem := match cfg.lineRunPolicy with | .clip => 0 | .carry => e.rem }

/-- A new scanline is FILL all along, and a running engine then writes what is left of its run. -/
theorem startLine_cases {cfg : Config} {e e' : Engine} {line : List Byte} (h : startLine cfg e = some (e', line)) :
    (e.stopped = true ∧ e' = freshEngine cfg e ∧ line = List.replicate e.lineLen e.fill) ∨
    (e.stopped = false ∧ writeCopies (freshEngine cfg e) (List.replicate e.lineLen e.fill) = some (e', line)) := by
  have h : (if e.stopped then some (freshEngine cfg e, List.replicate e.lineLen e.fill)
      else writeCopies (freshEngine cfg e) (List.replicate e.lineLen e.fill)) = some (e', line) := h
  split at h
  · next hs =>
    obtain ⟨rfl, rfl⟩ := Prod.mk.inj (Option.some.inj h)
    exact .inl ⟨hs, rfl, rfl⟩
  · next hs => exact .inr ⟨by simpa using hs, h⟩

theorem startLine_sameBody {cfg : Config} {e e' : Engine} {line : List Byte}
    (h : startLine cfg e = some (e', line)) : e.SameBody e' := by
  obtain ⟨-, rfl, -⟩ | ⟨-, hw⟩ := startLine_cases h
  · constructor <;> rfl
  · have hb := writeCopies_sameBody hw
    exact ⟨hb.lineLen, hb.lines, hb.fill, hb.consumer, hb.width, hb.height, hb.bpl⟩

theorem startLine_y {cfg : Config} {e e' : Engine} {line : List Byte}
    (h : startLine cfg e = some (e', line)) : e'.y = e.y := by
  obtain ⟨-, rfl, -⟩ | ⟨-, hw⟩ := startLine_cases h
  · rfl
  · exact (writeCopies_y hw).trans (b := (freshEngine cfg e).y) rfl

/-- The staged buffer of the consumer holds the rows emitted so far. -/
def Engine.Staged (e : Engine) : Prop :=
  (e.consumer = .indexed → e.staged.idx.length = e.y * e.staged.w) ∧
  (e.consumer = .planar → e.staged.pix.length = e.y * e.staged.w)

theorem inRange_eq_ok {α : Type} {access : Option α} {a : α} {p q : Ports} :
    inRange access p = .ok a q ↔ access = some a ∧ p = q := by
  cases access <;> simp

/-- Emitting a scanline touches the staged buffers alone, and adds a row to the consumer's one. -/
theorem emitLine_ok {e e' : Engine} {line : List Byte} {p q : Ports} (h : emitLine e line p = .ok e' q) :
    e.SameBody e' ∧ e' = { e with staged := e'.staged } ∧
      (e.Staged → Engine.Staged { e' with y := e.y + 1 }) := by
  unfold emitLine at h
  split at h
  · next hc =>
    simp only [andThen_eq_ok, inRange_eq_ok] at h
    obtain ⟨row, _, ⟨hread, rfl⟩, idx, _, ⟨hwrite, rfl⟩, he⟩ := h
    obtain ⟨rfl, rfl⟩ := Reply.ok.inj he
    refine ⟨⟨rfl, rfl, rfl, rfl, rfl, rfl, rfl⟩, rfl, fun hst => ⟨fun _ => ?_, by simp [hc]⟩⟩
    have hlen := memWrite_length hwrite
    rw [memRead_length hread, hst.1 hc] at hlen
    show idx.length = (e.y + 1) * e.staged.w
    rw [hlen, Nat.succ_mul]; omega
  · next hc =>
    simp only [andThen_eq_ok, inRange_eq_ok] at h
    obtain ⟨segs, _, ⟨hread, rfl⟩, pix, _, ⟨hwrite, rfl⟩, he⟩ := h
    obtain ⟨rfl, rfl⟩ := Reply.ok.inj he
    refine ⟨⟨rfl, rfl, rfl, rfl, rfl, rfl, rfl⟩, rfl, fun hst => ⟨by simp [hc], fun _ => ?_⟩⟩
    have hlen := memWrite_length hwrite
    have hrow : (planarRow e.staged.w e.staged.bplNat segs).length = e.staged.w := by simp [planarRow]
    rw [hrow, hst.2 hc] at hlen
    show pix.length = (e.y + 1) * e.staged.w
    rw [hlen, Nat.succ_mul]; omega
  · next hc =>
    simp only [andThen_eq_ok, inRange_eq_ok] at h
    obtain ⟨row, _, ⟨hread, rfl⟩, _, _, -, he⟩ := h
    obtain ⟨rfl, rfl⟩ := Reply.ok.inj he
    exact ⟨.refl e, rfl, fun _ => ⟨by simp [hc], by simp [hc]⟩⟩

/-- The engine past one emitted scanline. -/
def Engine.nextLine (e : Engine) : Engine := { e with y := e.y + 1 }

/-- The engine rests at a code, or emits its scanline and is over or begins the next one. -/
theorem settle_succ_ok {cfg : Config} {n : Nat} {e e' : Engine} {line line' : List Byte} {p q : Ports}
    (h : settle cfg (n + 1) e line p = .ok (e', line') q) :
    (e.x < e.lineLen ∧ e.stopped = false ∧ e' = e ∧ line' = line) ∨
    ∃ e₁ p₁, emitLine e line p = .ok e₁ p₁ ∧
      (n = 0 ∧ e' = e₁.nextLine ∨
       n ≠ 0 ∧ ∃ e₂ line₂, startLine cfg e₁.nextLine = some (e₂, line₂) ∧
        settle cfg n e₂ line₂ p₁ = .ok (e', line') q) := by
  unfold settle at h
  by_cases hrest : e.x < e.lineLen ∧ e.stopped = false
  · simp only [hrest, and_self, if_true, Reply.ok.injEq, Prod.mk.injEq] at h
    exact .inl ⟨hrest.1, hrest.2, h.1.1.symm, h.1.2.symm⟩
  · rw [if_neg hrest, andThen_eq_ok] at h
    obtain ⟨e₁, p₁, hemit, hgo⟩ := h
    refine .inr ⟨e₁, p₁, hemit, ?_⟩
    by_cases hn : n = 0
    · simp only [hn, if_true, Reply.ok.injEq, Prod.mk.injEq] at hgo
      exact .inl ⟨hn, hgo.1.1.symm⟩
    · simp only [hn, if_false, andThen_eq_ok, inRange_eq_ok] at hgo
      obtain ⟨⟨e₂, line₂⟩, _, ⟨hstart, rfl⟩, hset⟩ := hgo
      exact .inr ⟨hn, e₂, line₂, hstart, hset⟩

theorem settle_sameBody {cfg : Config} {n : Nat} {e e' : Engine} {line line' : List Byte} {p q : Ports}
    (h : settle cfg n e line p = .ok (e', line') q) : e.SameBody e' := by
  induction n generalizing e line p with
  | zero =>
    simp only [settle, Reply.ok.injEq, Prod.mk.injEq] at h
    rw [h.1.1]; exact .refl e'
  | succ n ih =>
    obtain ⟨-, -, rfl, -⟩ | ⟨e₁, p₁, hemit, ⟨-, rfl⟩ | ⟨-, e₂, line₂, hstart, hset⟩⟩ := settle_succ_ok h
    · constructor <;> rfl
    · have hb := (emitLine_ok hemit).1
      exact ⟨hb.lineLen, hb.lines, hb.fill, hb.consumer, hb.width, hb.height, hb.bpl⟩
    · have hb := (emitLine_ok hemit).1
      have hnext : e.SameBody e₁.nextLine :=
        ⟨hb.lineLen, hb.lines, hb.fill, hb.consumer, hb.width, hb.height, hb.bpl⟩
      exact hnext.trans ((startLine_sameBody hstart).trans (ih hset))

theorem enterBody_sameBody {cfg : Config} {e e' : Engine} {line : List Byte} {p q : Ports}
    (h : enterBody cfg e p = .ok (e', line) q) : e.SameBody e' := by
  unfold enterBody at h
  split at h
  · simp only [Reply.ok.injEq, Prod.mk.injEq] at h
    rw [h.1.1]; exact .refl e'
  · simp only [andThen_eq_ok, inRange_eq_ok] at h
    obtain ⟨⟨e₁, line₁⟩, _, ⟨hstart, rfl⟩, hset⟩ := h
    exact (startLine_sameBody hstart).trans (settle_sameBody hset)

/-! ### One code, and the codes to the end -/

/-- The meanings that the two code forms have in the engine (R180, R181). -/
def RunsCodes (run : Instr → State → Outcome State Fault Refusal) : Prop :=
  (∀ v s, run (.lit v) s = execCode 1 v s) ∧ ∀ n v s, run (.run n v) s = execCode n.toNat v s

theorem runsCodes_exec : RunsCodes exec := ⟨fun _ _ => rfl, fun _ _ _ => rfl⟩
theorem runsCodes_runCode : RunsCodes runCode := ⟨fun _ _ => rfl, fun _ _ _ => rfl⟩

/-- The fetch decodes code bytes, so it gives a code form. -/
theorem fetchCode_codeForm {p q : Ports} {i : Instr} (h : fetchCode p = .ok (some i) q) :
    (∃ v, i = .lit v) ∨ ∃ n v, i = .run n v := by
  unfold fetchCode at h
  obtain ⟨c, p₁, -, h⟩ := andThen_eq_ok.mp h
  cases c with
  | none => simp at h
  | some b =>
    cases hb : isMarker b with
    | false =>
      simp only [hb, decode_code_of_not_marker hb] at h
      simp at h
      exact .inl ⟨b, h.1.symm⟩
    | true =>
      simp only [hb, if_true] at h
      obtain ⟨d, p₂, -, h⟩ := andThen_eq_ok.mp h
      cases d with
      | none => simp at h
      | some v =>
        simp only [decode_code_of_marker hb] at h
        simp at h
        exact .inr ⟨_, v, h.1.symm⟩

/-- What a code leaves of the engine and LINE: stopped at the end of the stream (R185), or with the copies
of the code written (R180, R181). -/
def CodeDone (e : Engine) (line : List Byte) (e' : Engine) (line' : List Byte) : Prop :=
  (e' = { e with stopped := true } ∧ line' = line) ∨
  ∃ n v, writeCopies { e with rem := n, val := v } line = some (e', line')

theorem codeDone_sameBody {e e' : Engine} {line line' : List Byte} (h : CodeDone e line e' line') :
    e.SameBody e' := by
  obtain ⟨rfl, -⟩ | ⟨n, v, hw⟩ := h
  · constructor <;> rfl
  · have hb := writeCopies_sameBody hw
    exact ⟨hb.lineLen, hb.lines, hb.fill, hb.consumer, hb.width, hb.height, hb.bpl⟩

/-- A code form executed in a body writes its copies, and nothing else. -/
theorem execCode_eq_next {n : Nat} {v : Byte} {s t : State} {e : Engine} (hs : s.phase = .body e)
    (h : execCode n v s = .next t) :
    ∃ e' line', writeCopies { e with rem := n, val := v } s.line = some (e', line') ∧
      t = withBody e' line' s.ports s := by
  unfold execCode at h
  split at h
  case h_2 hno => exact absurd hs (hno e)
  next e₀ he₀ =>
  obtain rfl : e₀ = e := Phase.body.inj (he₀.symm.trans hs)
  split at h
  · next e' line' hw => exact ⟨e', line', hw, (Outcome.next.inj h).symm⟩
  · simp at h

section Codes
variable {s : State} {P : State → Prop}

/-- One code of a body fails, is never answered, or leads on from an engine of the same body. -/
theorem yields_codeStep {run : Instr → State → Outcome State Fault Refusal} (hrun : RunsCodes run) {e : Engine}
    (hs : s.phase = .body e) (hf : FailsInto s P)
    (hgo : ∀ e₁ e' line' p, CodeDone e s.line e' line' →
      Yields (continueBody (withBody e₁ line' p s) (settle s.cfg (e'.lines - e'.y) e' line' p)) P) :
    Yields (codeStep run s) P := by
  unfold codeStep
  split
  case h_2 h => exact absurd hs (h e)
  next e₀ he₀ =>
  obtain rfl : e₀ = e := Phase.body.inj (he₀.symm.trans hs)
  split
  · next p _ =>
    have hput : { s with ports := p } = withBody e₀ s.line p s := by rw [withBody, ← hs]
    rw [hput]
    exact hgo e₀ _ _ p (.inl ⟨rfl, rfl⟩)
  · next i p hfetch =>
    have hcode : ∃ n v, run i { s with ports := p } = execCode n v { s with ports := p } := by
      obtain ⟨v, rfl⟩ | ⟨n, v, rfl⟩ := fetchCode_codeForm hfetch
      · exact ⟨1, v, hrun.1 v _⟩
      · exact ⟨n.toNat, v, hrun.2 n v _⟩
    obtain ⟨n, v, hcode⟩ := hcode
    rw [hcode]
    split
    · next t ht =>
      obtain ⟨e', line', hw, rfl⟩ := execCode_eq_next (s := { s with ports := p }) hs ht
      exact hgo e' e' line' p (.inr ⟨n, v, hw⟩)
    · exact yields_fault _
    · exact yields_refused _
  · exact yields_next.mpr (hf.1 _ _)
  · exact yields_next.mpr (hf.2 _)
  · exact yields_refused _

/-- What every code of a body keeps, the body keeps to its end. -/
theorem yields_bodyLoop (hstep : ∀ s e, P s → s.phase = .body e → Yields (codeStep runCode s) P) (n : Nat)
    (h : P s) : Yields (bodyLoop n s) P := by
  induction n generalizing s with
  | zero => exact yields_next.mpr h
  | succ n ih =>
    unfold bodyLoop
    split
    · next e hs =>
      have hcode := hstep s e h hs
      cases hc : codeStep runCode s with
      | next t => exact ih (hcode t hc)
      | fault why => exact yields_fault why
      | refused why => exact yields_refused why
    · exact yields_next.mpr h

theorem yields_finishCommand (hstep : ∀ s e, P s → s.phase = .body e → Yields (codeStep runCode s) P) (h : P s) :
    Yields (finishCommand s) P := yields_bodyLoop hstep _ h

theorem yields_wholeCommand (hstep : ∀ s e, P s → s.phase = .body e → Yields (codeStep runCode s) P)
    {o : Outcome State Fault Refusal} (h : Yields o P) : Yields (wholeCommand o) P := by
  cases o with
  | next s => exact yields_finishCommand hstep (yields_next.mp h)
  | fault why => exact yields_fault why
  | refused why => exact yields_refused why

/-- DECODE up to its body: the header or the tail fails, the degenerate Image is committed (R152), or the
body begins. -/
theorem yields_beginDecode (hf : FailsInto s P)
    (hskip : ∀ info q, headerRead s.cfg s.ports = .ok info q → FailsInto { s with hdr := info.hdr } P)
    (hdegenerate : ∀ info q p, headerRead s.cfg s.ports = .ok info q →
      P (endCommand Status.success p (setResults info.w info.h (headerResults info true)
        (commitImage (degenerateImage info) { s with hdr := info.hdr }))))
    (hbody : ∀ info q p, headerRead s.cfg s.ports = .ok info q →
      Yields (continueBody { s with hdr := info.hdr } (enterBody s.cfg (decodeEngine s.freeIx info) p)) P) :
    Yields (beginDecode s) P := by
  unfold beginDecode
  cases hh : headerRead s.cfg s.ports with
  | ok info q =>
    have hfail := hskip info q hh
    show Yields (decodeTail info { s with hdr := info.hdr } q) P
    unfold decodeTail
    cases skip 60 q with
    | ok ended p =>
      cases ended with
      | true => exact yields_next.mpr (hdegenerate info q p hh)
      | false => exact hbody info q p hh
    | error e p => exact yields_next.mpr (hfail.1 e p)
    | stall p => exact yields_next.mpr (hfail.2 p)
    | refuse why => exact yields_refused why
  | error e p => exact yields_next.mpr (hf.1 e p)
  | stall p => exact yields_next.mpr (hf.2 p)
  | refuse why => exact yields_refused why

end Codes

end Sys2Proof.Machine
end

section
/-! PROOFS. What an instruction can change of the Image, the results and the operands (spec/10_state.md
R63). -/

namespace Sys2Proof.Machine

open Host

/-- The operands are kept; the Image and the results change only where they may, by a command that
succeeded. -/
def Effects (image results : Prop) (s t : State) : Prop :=
  KeepsOperands s t ∧ (t.image = s.image ∨ image ∧ t.status = Status.success) ∧
    (KeepsResults s t ∨ results ∧ t.status = Status.success)

section Effects
variable {image results : Prop} {s t u : State}

theorem effects_of_keepsAll (h : KeepsAll s t) : Effects image results s t := ⟨h.2.2, .inl h.1, .inl h.2.1⟩

/-- Errors and silence keep everything but STATUS, the counts and the scratch state. -/
theorem failsInto_effects (h : KeepsAll s u) : FailsInto u (Effects image results s) :=
  ⟨fun _ _ => effects_of_keepsAll (by simpa [KeepsAll, KeepsResults, KeepsOperands] using h),
    fun _ => effects_of_keepsAll (by simpa [KeepsAll, KeepsResults, KeepsOperands] using h)⟩

/-- A command's success keeps what its own effect keeps. -/
theorem effects_endCommand_success {p : Ports} (hops : KeepsOperands s u) (himg : u.image = s.image ∨ image)
    (hres : KeepsResults s u ∨ results) : Effects image results s (endCommand Status.success p u) :=
  ⟨by simpa [KeepsOperands] using hops, by simpa using himg, by simpa [KeepsResults] using hres⟩

theorem keepsAll_prologue (s : State) : KeepsAll s (prologue s) := by
  simp [KeepsAll, KeepsResults, KeepsOperands]

theorem keepsOperands_commit (img : Image) (h : KeepsOperands s u) : KeepsOperands s (commitImage img u) := by
  simpa [KeepsOperands] using h

theorem keepsResults_commit (img : Image) (h : KeepsResults s u) : KeepsResults s (commitImage img u) := by
  simpa [KeepsResults] using h

theorem keepsOperands_setResults (w h : Nat) (r : Res2) (hk : KeepsOperands s u) :
    KeepsOperands s (setResults w h r u) := by
  simpa [KeepsOperands] using hk

/-- A command without an effect of its own. -/
theorem yields_noEffectCommand {α : Type} {r : State → Reply α} :
    Yields (runCommand s fun s => conclude s (r s) noEffect) (Effects image results s) :=
  have h := keepsAll_prologue s
  yields_runCommand fun _ => yields_conclude (failsInto_effects h) fun _ _ _ =>
    effects_endCommand_success h.2.2 (.inl h.1) (.inl h.2.1)

/-- A command whose effect is to commit an Image. -/
theorem yields_commitCommand {α : Type} {r : State → Reply α} {img : α → State → Image} :
    Yields (runCommand s fun s => conclude s (r s) fun a s => commitImage (img a s) s) (Effects True results s) :=
  have h := keepsAll_prologue s
  yields_runCommand fun _ => yields_conclude (failsInto_effects h) fun _ _ _ =>
    effects_endCommand_success (keepsOperands_commit _ h.2.2) (.inr trivial) (.inl (keepsResults_commit _ h.2.1))

/-! ### Commands with a body -/

/-- A command with a body, on its way or over: while the body runs everything is kept, and its consumer is
emitRaw unless the command may build an Image. -/
def BodyEffects (builds : Prop) (s t : State) : Prop :=
  Effects builds builds s t ∧ ∀ e, t.phase = .body e → KeepsAll s t ∧ (e.consumer = .raw ∨ builds)

variable {builds : Prop}

theorem bodyEffects_of_idle (hp : t.phase = .idle) (h : Effects builds builds s t) : BodyEffects builds s t :=
  ⟨h, fun e he => by simp [hp] at he⟩

theorem failsInto_bodyEffects (h : KeepsAll s u) : FailsInto u (BodyEffects builds s) :=
  ⟨fun e p => bodyEffects_of_idle (by simp) ((failsInto_effects h).1 e p),
    fun p => ⟨(failsInto_effects h).2 p, fun e he => by simp at he⟩⟩

theorem bodyEffects_withBody {e : Engine} {line : List Byte} {p : Ports} (h : KeepsAll s u)
    (hc : e.consumer = .raw ∨ builds) : BodyEffects builds s (withBody e line p u) :=
  have hk : KeepsAll s (withBody e line p u) := h
  ⟨effects_of_keepsAll hk, fun e' he => ⟨hk, by obtain rfl := Phase.body.inj he; exact hc⟩⟩

/-- What the engine goes on with is of the same body, so a body that builds no Image never commits one. -/
theorem yields_continueBody_effects {r : Reply (Engine × List Byte)} (h : KeepsAll s u)
    (hr : ∀ e line p, r = .ok (e, line) p → e.consumer = .raw ∨ builds) :
    Yields (continueBody u r) (BodyEffects builds s) := by
  refine yields_continueBody (failsInto_bodyEffects h)
    (fun e line p he _ => bodyEffects_withBody h (hr e line p he)) fun e line p he _ => ?_
  have hbuilds : e.consumer ≠ .raw → builds := (hr e line p he).resolve_left
  refine yields_finishBody (failsInto_bodyEffects h) (fun _ => ?_) (fun hc => ?_) fun hc _ _ _ => ?_
  · exact bodyEffects_of_idle rfl (effects_endCommand_success h.2.2 (.inl h.1) (.inl h.2.1))
  · have hb := hbuilds (by simp [hc])
    exact bodyEffects_of_idle rfl (effects_endCommand_success
      (keepsOperands_setResults _ _ _ (keepsOperands_commit _ h.2.2)) (.inr hb) (.inr hb))
  · have hb := hbuilds (by simp [hc])
    exact bodyEffects_of_idle rfl (effects_endCommand_success
      (keepsOperands_setResults _ _ _ (keepsOperands_commit _ h.2.2)) (.inr hb) (.inr hb))

theorem yields_codeStep_effects {run : Instr → State → Outcome State Fault Refusal} (hrun : RunsCodes run)
    (hu : BodyEffects builds s u) {e : Engine} (he : u.phase = .body e) :
    Yields (codeStep run u) (BodyEffects builds s) := by
  obtain ⟨hk, hc⟩ := hu.2 e he
  refine yields_codeStep hrun he (failsInto_bodyEffects hk) fun e₁ e' line' p hdone => ?_
  refine yields_continueBody_effects (u := withBody e₁ line' p u) hk fun e'' _ _ hset => ?_
  rwa [((codeDone_sameBody hdone).trans (settle_sameBody hset)).consumer]

theorem yields_wholeCommand_effects {o : Outcome State Fault Refusal} (h : Yields o (BodyEffects builds s)) :
    Yields (wholeCommand o) (Effects builds builds s) :=
  (yields_wholeCommand (fun _ _ hu he => yields_codeStep_effects runsCodes_runCode hu he) h).mono fun _ ht => ht.1

theorem yields_beginDecode_effects (h : KeepsAll s u) : Yields (beginDecode u) (BodyEffects True s) :=
  yields_beginDecode (failsInto_bodyEffects h) (fun _ _ _ => failsInto_bodyEffects h)
    (fun _ _ _ _ => bodyEffects_of_idle rfl (effects_endCommand_success
      (keepsOperands_setResults _ _ _ (keepsOperands_commit _ h.2.2)) (.inr trivial) (.inr trivial)))
    fun _ _ _ _ => yields_continueBody_effects h fun _ _ _ _ => .inr trivial

theorem yields_beginRleDecode_effects (h : KeepsAll s u) : Yields (beginRleDecode u) (BodyEffects False s) :=
  yields_continueBody_effects h fun _ _ _ he => by
    obtain ⟨_, _, -, henter⟩ := andThen_eq_ok.mp he
    exact .inl (enterBody_sameBody henter).consumer

/-! ### The instructions -/

theorem yields_execCode_effects {n : Nat} {v : Byte} : Yields (execCode n v s) (Effects image results s) := by
  intro t ht
  cases hp : s.phase with
  | body e =>
    obtain ⟨e', line', -, rfl⟩ := execCode_eq_next hp ht
    exact effects_of_keepsAll (by simp [withBody, KeepsAll, KeepsResults, KeepsOperands])
  | _ => simp [execCode_no_body (s := s) (n := n) (v := v) (by simp [hp])] at ht

theorem yields_execDecode_effects : Yields (execDecode s) (Effects True True s) :=
  yields_runCommand fun _ => yields_wholeCommand_effects (yields_beginDecode_effects (keepsAll_prologue s))

theorem yields_execRleDecode_effects : Yields (execRleDecode s) (Effects False False s) :=
  yields_runCommand fun _ => yields_wholeCommand_effects (yields_beginRleDecode_effects (keepsAll_prologue s))

theorem yields_execProbe_effects : Yields (execProbe s) (Effects False True s) :=
  have h := keepsAll_prologue s
  yields_runCommand fun _ => yields_conclude (failsInto_effects h) fun _ _ _ =>
    effects_endCommand_success (keepsOperands_setResults _ _ _ h.2.2) (.inl h.1) (.inr trivial)

theorem yields_execLoadIndexed_effects : Yields (execLoadIndexed s) (Effects True False s) := yields_commitCommand

theorem yields_execLoadTruecolor_effects : Yields (execLoadTruecolor s) (Effects True False s) :=
  yields_commitCommand

theorem yields_execClear_effects : Yields (execClear s) (Effects True False s) :=
  have h := keepsAll_prologue s
  yields_runCommand fun _ => yields_conclude (failsInto_effects h) fun _ _ _ =>
    effects_endCommand_success h.2.2 (.inr trivial) (.inl h.2.1)

/-- Each instruction's row of R63. -/
theorem yields_exec_effects (i : Instr) (s : State) :
    Yields (exec i s) (Effects (i ∈ [.decode, .loadIndexed, .loadTruecolor, .clear]) (i ∈ [.probe, .decode]) s) := by
  unfold exec
  cases i with
  | lit v => exact yields_execCode_effects
  | run n v => exact yields_execCode_effects
  | decode => simpa using yields_execDecode_effects
  | probe => simpa using yields_execProbe_effects
  | loadIndexed => simpa using yields_execLoadIndexed_effects
  | loadTruecolor => simpa using yields_execLoadTruecolor_effects
  | clear => simpa using yields_execClear_effects
  | rleDecode => simpa using yields_execRleDecode_effects
  | nop | rleEncode | readIndex | readPalette | readPixels | writePcx | writeIco | writeBmp | writeBmpa =>
    exact yields_noEffectCommand

end Effects

end Sys2Proof.Machine

namespace Sys2Proof.Proofs

open Sys2Proof Sys2Proof.Machine Host

/-- Settles O48: while a body runs everything is kept, and only emitIndexed and emitPlanar end in a commit. -/
theorem onlyBuildersReplaceTheImage : Obligations.OnlyBuildersReplaceTheImage := by
  unfold Obligations.OnlyBuildersReplaceTheImage
  intro s t i hexec
  obtain ⟨hops, himage, hresults⟩ := yields_exec_effects i s t hexec
  exact ⟨himage.resolve_left, hresults.resolve_left, hops⟩

end Sys2Proof.Proofs
end

section
/-! PROOFS. Every step keeps the machine's invariant: R54, R56 and R58 for the Image (spec/10_state.md), R37
for STATUS, R33 for the phase, and R184 for a running body. -/

namespace Sys2Proof.Machine

open Host

/-! ### The Images that commands build -/

section Images
variable {cfg : Config} {img : Image}

theorem imageOk_none (cfg : Config) : Image.Ok cfg Image.none :=
  ⟨wf_none, fun _ => ⟨rfl, rfl, rfl⟩, fun h => absurd rfl h, nofun⟩

theorem imageOk_clearedImage (ix : Draw) (h : Image.Ok cfg img) : Image.Ok cfg (clearedImage ix img) := by
  obtain ⟨hwf, habsent, -, -⟩ := h
  have hrepr : (clearedImage ix img).repr = .absent := by
    unfold clearedImage
    split
    · assumption
    · rfl
  refine ⟨wf_clearedImage ix hwf habsent, fun _ => ?_, fun hn => absurd hrepr hn, fun hi => by simp [hrepr] at hi⟩
  unfold clearedImage
  split <;> exact ⟨rfl, rfl, rfl⟩

/-- An INDEXED Image looked up in its own palette, as DECODE and LOAD_INDEXED commit it. -/
theorem imageOk_commit_indexed {s : State} (hr : img.repr = .indexed)
    (hg : geometryOk cfg img.w img.h img.bplNat) (hpal : img.pal.length = 256) (halpha : alphaForced img.pal)
    (hidx : img.idx.length = img.area) (hpix : img.pix = depalettize img.pal img.idx) :
    Image.Ok cfg (commitImage img s).image := by
  rw [commitImage_image_of_indexed img s hr]
  exact ⟨⟨hpal, hidx, by rw [hpix, depalettize_length, hidx]⟩, fun ha => by simp [hr] at ha, fun _ => hg,
    fun _ => ⟨halpha, hpix⟩⟩

/-- A TRUECOLOR Image, as DECODE and LOAD_TRUECOLOR commit it. -/
theorem imageOk_commit_truecolor {s : State} (hr : img.repr = .truecolor)
    (hg : geometryOk cfg img.w img.h img.bplNat) (hpix : img.pix.length = img.area) :
    Image.Ok cfg (commitImage img s).image :=
  ⟨wf_commit_truecolor s hr hpix, fun ha => by simp [hr] at ha,
    fun _ => by simpa [Image.w, Image.h, Image.bplNat] using hg, fun hi => by simp [hr] at hi⟩

@[simp] theorem samplesOfBytes_length (n : Nat) (d : List Byte) : (samplesOfBytes n d).length = n := by
  induction n generalizing d with
  | zero => rfl
  | succ n ih => simp [samplesOfBytes, ih]

theorem resolvePalette_ok {fb : List Rgb} {p q : Ports} {r : List Sample × Bool}
    (h : resolvePalette fb p = .ok r q) : r.1.length = 256 ∧ alphaForced r.1 := by
  obtain ⟨found, p₁, -, h⟩ := andThen_eq_ok.mp h
  cases found with
  | true =>
    obtain ⟨bs, p₂, -, h⟩ := andThen_eq_ok.mp h
    obtain ⟨rfl, -⟩ := Reply.ok.inj h
    exact ⟨paletteOfBytes_length bs, paletteOfBytes_alphaForced bs⟩
  | false =>
    obtain ⟨rfl, -⟩ := Reply.ok.inj h
    exact ⟨fallbackPalette_length fb, fallbackPalette_alphaForced fb⟩

/-- A staged Image has the header's geometry where IMG_WIDTH and IMG_HEIGHT can hold it. -/
theorem stagedImage_geometry {w h : Nat} {bpl : BitVec 16} (hg : geometryOk cfg w h bpl.toNat) :
    (stagedImage w h bpl).w = w ∧ (stagedImage w h bpl).h = h ∧ (stagedImage w h bpl).bplNat = bpl.toNat := by
  obtain ⟨-, -, hw, -, hh⟩ := hg
  have hbpl := bpl.isLt
  refine ⟨?_, ?_, rfl⟩
  · simp [stagedImage, Image.w]; omega
  · simp [stagedImage, Image.h]; omega

end Images

/-! ### Checks -/

theorem require_eq_ok {c : Bool} {e : CmdError} {p q : Ports} {u : Unit} :
    require c e p = .ok u q ↔ c = true ∧ p = q := by
  cases c <;> simp [require]

/-- A validated header has the geometry of an Image and one or three planes (spec/40_header.md R148, R149). -/
theorem headerRead_ok {cfg : Config} {p q : Ports} {info : HeaderInfo} (h : headerRead cfg p = .ok info q) :
    geometryOk cfg info.w info.h info.hdr.bpl.toNat ∧ (info.hdr.planes = 1#8 ∨ info.hdr.planes = 3#8) := by
  obtain ⟨b, p₁, -, h⟩ := andThen_eq_ok.mp h
  cases b with
  | none => simp at h
  | some b =>
    simp only [checkHeader, requireHeight, andThen_eq_ok, require_eq_ok] at h
    obtain ⟨_, _, -, _, _, ⟨hplanes, -⟩, _, _, ⟨harea, -⟩, _, _, ⟨hbpl, -⟩, _, _, ⟨hlarge, -⟩, _, _, ⟨hheight, -⟩,
      hinfo⟩ := h
    obtain ⟨rfl, -⟩ := Reply.ok.inj hinfo
    simp only [decide_eq_true_eq] at harea hbpl hlarge hheight
    obtain ⟨hw1, hh1⟩ := harea
    obtain ⟨w, hw⟩ := Int.eq_ofNat_of_zero_le (show 0 ≤ (parseHeader b).width by omega)
    obtain ⟨h, hh⟩ := Int.eq_ofNat_of_zero_le (show 0 ≤ (parseHeader b).height by omega)
    rw [hw, hh] at hlarge
    simp only [hw, hh, Int.toNat_natCast] at hw1 hh1 hbpl hheight ⊢
    exact ⟨⟨by omega, by omega, by omega, by exact_mod_cast hlarge, hheight⟩, by simpa using hplanes⟩

/-- Load validation with the bound at the commit gives the geometry of an Image (spec/45_commands.md R368). -/
theorem geometryOk_of_checks {cfg : Config} {g : LoadGeometry} {p q p' q' : Ports} {u u' : Unit}
    (h : checkLoad cfg g p = .ok u q) (hh : requireHeight g.h p' = .ok u' q') :
    geometryOk cfg g.w g.h g.bpl := by
  simp only [checkLoad, requireHeight, andThen_eq_ok, require_eq_ok, decide_eq_true_eq] at h hh
  obtain ⟨_, _, ⟨⟨hw1, hh1⟩, -⟩, _, _, ⟨hbpl, -⟩, hlarge, -⟩ := h
  exact ⟨hw1, hh1, hbpl, hlarge, hh.1⟩

/-- A request that is answered was served, or its failure answers. -/
theorem answer_eq_ok {α : Type} {p q : Ports} {a : α} {served : Ports → Reply α} {failed : Nat → Ports → Reply α}
    (h : answer p served failed = .ok a q) :
    (∃ ds, served { p with draws := ds } = .ok a q) ∨ ∃ n ds, failed n { p with draws := ds } = .ok a q := by
  unfold answer at h
  split at h
  · exact .inl ⟨p.draws, h⟩
  · next ds _ => exact .inl ⟨ds, h⟩
  · next n ds _ => exact .inr ⟨n, ds, h⟩
  · simp at h

theorem readExact_length {n : Nat} {p q : Ports} {bs : List Byte} (h : readExact n p = .ok (some bs) q) :
    bs.length = n := by
  obtain ⟨ds, hserved⟩ | ⟨_, _, hfailed⟩ := answer_eq_ok h
  · by_cases hn : p.input.length < n
    · simp [hn] at hserved
    · simp only [hn, if_false] at hserved
      rw [← Option.some.inj (Reply.ok.inj hserved).1, List.length_take]; omega
  · simp [inFailed] at hfailed

theorem readData_length {n : Nat} {p q : Ports} {d : List Byte} (h : readData n p = .ok d q) : d.length = n := by
  obtain ⟨r, p₁, hread, h⟩ := andThen_eq_ok.mp h
  cases r with
  | none => simp at h
  | some bs =>
    obtain ⟨rfl, -⟩ := Reply.ok.inj h
    exact readExact_length hread

/-! ### The engine between two codes (spec/41_rle_decoder.md R184) -/

section Engine
variable {cfg : Config} {s : State} {e e' : Engine} {line line' : List Byte} {p q : Ports}

/-- The operands of a body are those of the command that runs it, and its staged Image has the geometry of
the latched header. -/
def Engine.Suits (s : State) (e : Engine) : Prop :=
  e.lineLen ≤ lineBound ∧
  (e.consumer = .raw → e.lineLen = s.arg0.toNat ∧ e.lines = s.arg1.toNat ∧ e.fill = s.arg2) ∧
  (e.consumer ≠ .raw → geometryOk s.cfg e.staged.w e.staged.h e.staged.bplNat ∧
    e.lines = e.staged.h ∧ s.hdr.bpl = e.staged.bpl) ∧
  (e.consumer = .indexed → e.lineLen = e.staged.bplNat ∧ e.fill = 0xFF#8 ∧ s.hdr.planes = 1#8) ∧
  (e.consumer = .planar → e.lineLen = 3 * e.staged.bplNat ∧ s.hdr.planes = 3#8)

/-- The engine inside a scanline, or at its end: LINE has its size, and a run goes on only past the end. -/
structure Engine.Fits (e : Engine) (line : List Byte) : Prop where
  y_lt : e.y < e.lines
  x_le : e.x ≤ e.lineLen
  rem_eq : e.stopped = false → e.x < e.lineLen → e.rem = 0
  line_length : line.length = e.lineLen
  staged : e.Staged

/-- The engine where it waits for a code. -/
def Engine.AtCode (e : Engine) (line : List Byte) : Prop :=
  e.x < e.lineLen ∧ e.rem = 0 ∧ e.stopped = false ∧ line.length = e.lineLen

/-- The engine past its last scanline, or at a code. -/
structure Engine.Settled (e : Engine) (line : List Byte) : Prop where
  y_le : e.y ≤ e.lines
  staged : e.Staged
  atCode : e.y < e.lines → e.AtCode line

theorem engineOk_iff :
    Engine.Ok s e ↔ e.Suits s ∧ e.Staged ∧ e.y < e.lines ∧ e.AtCode s.line := by
  simp only [Engine.Ok, Engine.Suits, Engine.Staged, Engine.AtCode]
  tauto

theorem suits_of_sameBody (h : e.SameBody e') (hs : e.Suits s) : e'.Suits s := by
  obtain ⟨hlen, hlines, hfill, hcons, hw, hh, hb⟩ := h
  simpa only [Engine.Suits, Image.w, Image.h, Image.bplNat, hlen, hlines, hfill, hcons, hw, hh, hb] using hs

theorem writeCopies_fits (h : writeCopies e line = some (e', line')) (hy : e.y < e.lines) (hx : e.x ≤ e.lineLen)
    (hl : line.length = e.lineLen) (hst : e.Staged) : e'.Fits line' := by
  obtain ⟨hlen, hx', hlineLen, hrem, hy', hlines, -, hcons, hstaged, -, -⟩ := writeCopies_bounds h hx hl
  refine ⟨by omega, by omega, fun _ hlt => hrem (by omega), by omega, ?_⟩
  simpa only [Engine.Staged, hcons, hstaged, hy'] using hst

theorem startLine_fits (h : startLine cfg e = some (e', line)) (hy : e.y < e.lines) (hst : e.Staged) :
    e'.Fits line := by
  obtain ⟨hstop, rfl, rfl⟩ | ⟨-, hw⟩ := startLine_cases h
  · exact ⟨hy, Nat.zero_le _, fun hrun => by simp [freshEngine, hstop] at hrun, List.length_replicate, hst⟩
  · exact writeCopies_fits hw hy (Nat.zero_le _) List.length_replicate hst

theorem codeDone_fits (h : CodeDone e line e' line') (hy : e.y < e.lines) (hat : e.AtCode line)
    (hst : e.Staged) : e'.Fits line' := by
  obtain ⟨hx, -, -, hl⟩ := hat
  obtain ⟨rfl, rfl⟩ | ⟨n, v, hw⟩ := h
  · exact ⟨hy, hx.le, nofun, hl, hst⟩
  · exact writeCopies_fits hw hy hx.le hl hst

/-- The engine goes on to a code, or emits every scanline that is left. -/
theorem settle_settled {n : Nat} (h : settle cfg n e line p = .ok (e', line') q) (hn : n = e.lines - e.y)
    (hfits : e.Fits line) : e'.Settled line' := by
  induction n generalizing e line p with
  | zero => have := hfits.y_lt; omega
  | succ n ih =>
    obtain ⟨hx, hstop, rfl, rfl⟩ | ⟨e₁, p₁, hemit, hnext⟩ := settle_succ_ok h
    · exact ⟨hfits.y_lt.le, hfits.staged, fun _ => ⟨hx, hfits.rem_eq hstop hx, hstop, hfits.line_length⟩⟩
    · obtain ⟨hsame, heq, hrow⟩ := emitLine_ok hemit
      have hy : e₁.nextLine.y = e.y + 1 := by rw [Engine.nextLine, heq]
      have hlines : e₁.nextLine.lines = e.lines := hsame.lines
      have hstaged : e₁.nextLine.Staged := by
        have := hrow hfits.staged
        rwa [show e.y = e₁.y by rw [heq]] at this
      obtain ⟨hn0, rfl⟩ | ⟨hn0, e₂, line₂, hstart, hset⟩ := hnext
      · exact ⟨by omega, hstaged, fun hlt => by omega⟩
      · have hy₂ := startLine_y hstart
        have hlines₂ := (startLine_sameBody hstart).lines
        exact ih hset (by omega) (startLine_fits hstart (by omega) hstaged)

theorem enterBody_settled (h : enterBody cfg e p = .ok (e', line) q) (hy : e.y = 0) (hst : e.Staged) :
    e'.Settled line := by
  unfold enterBody at h
  split at h
  · obtain ⟨he, -⟩ := Reply.ok.inj h
    obtain ⟨rfl, -⟩ := Prod.mk.inj he
    exact ⟨by omega, hst, fun hlt => by omega⟩
  · simp only [andThen_eq_ok, inRange_eq_ok] at h
    obtain ⟨⟨e₁, line₁⟩, _, ⟨hstart, rfl⟩, hset⟩ := h
    have hy₁ := startLine_y hstart
    have hlines₁ := (startLine_sameBody hstart).lines
    exact settle_settled hset (by show e.lines = e₁.lines - e₁.y; omega) (startLine_fits hstart (by omega) hst)

end Engine

/-! ### The invariant along a command -/

/-- The invariant, with the configuration `c`. -/
def InvAt (c : Config) (t : State) : Prop := t.Inv ∧ t.cfg = c

/-- A command is in progress in a state that keeps the rest of the invariant. -/
structure InCommand (c : Config) (s : State) : Prop where
  cfg_eq : s.cfg = c
  cfg_ok : c.Ok
  image_ok : Image.Ok c s.image
  running : s.status = Status.running

section Commands
variable {c : Config} {s t u : State}

theorem inCommand_prologue (h : s.Inv) : InCommand s.cfg (prologue s) := ⟨rfl, h.1, h.2.1, rfl⟩

/-- While BUSY the invariant leaves STATUS one value. -/
theorem inCommand_of_busy (h : s.Inv) (hb : s.status.busy = true) : InCommand s.cfg s := by
  obtain ⟨hcfg, himage, ⟨hdone, herror⟩, -⟩ := h
  refine ⟨rfl, hcfg, himage, ?_⟩
  have hd := hdone hb
  have he := herror hd
  show s.status = ⟨true, false, none⟩
  rw [← hb, ← hd, ← he]

theorem invAt_endCommand {st : Status} {p : Ports} (hcfg : s.cfg = c) (hc : c.Ok) (himage : Image.Ok c s.image)
    (hlegal : st.Legal) (hidle : st.busy = false) : InvAt c (endCommand st p s) := by
  subst hcfg
  exact ⟨⟨hc, himage, hlegal, by simp [hidle], fun _ => ⟨rfl, rfl⟩, nofun⟩, rfl⟩

theorem invAt_stallCommand {p : Ports} (h : InCommand c s) : InvAt c (stallCommand p s) := by
  obtain ⟨rfl, hc, himage, hrun⟩ := h
  refine ⟨⟨hc, himage, ?_, ?_, ?_, nofun⟩, rfl⟩ <;> simp [hrun, Status.Legal]

theorem failsInto_invAt (h : InCommand c s) : FailsInto s (InvAt c) :=
  ⟨fun _ _ => invAt_endCommand h.cfg_eq h.cfg_ok h.image_ok ⟨nofun, nofun⟩ rfl, fun _ => invAt_stallCommand h⟩

theorem invAt_success {p : Ports} (hcfg : s.cfg = c) (hc : c.Ok) (himage : Image.Ok c s.image) :
    InvAt c (endCommand Status.success p s) := invAt_endCommand hcfg hc himage ⟨nofun, nofun⟩ rfl

theorem invAt_withBody {e : Engine} {line : List Byte} {p : Ports} (h : InCommand c s)
    (hok : Engine.Ok (withBody e line p s) e) : InvAt c (withBody e line p s) := by
  obtain ⟨rfl, hc, himage, hrun⟩ := h
  refine ⟨⟨hc, himage, ?_, ?_, ?_, ?_⟩, rfl⟩
  · simp [withBody, hrun, Status.Legal]
  · simp [withBody, hrun]
  · simp [withBody, hrun]
  · rintro e' ⟨⟩; exact hok

/-- A command whose effect keeps the configuration and the Image's invariants. -/
theorem yields_conclude_invAt {α : Type} {r : Reply α} {effect : α → State → State} (h : InCommand c s)
    (heffect : ∀ a p, r = .ok a p → (effect a s).cfg = s.cfg ∧ Image.Ok c (effect a s).image) :
    Yields (conclude s r effect) (InvAt c) :=
  yields_conclude (failsInto_invAt h) fun a p hr =>
    have ⟨hcfg, himage⟩ := heffect a p hr
    invAt_success (hcfg.trans h.cfg_eq) h.cfg_ok himage

/-- What a body comes to: a code boundary, an Image of the staged rows, or the end of RLE_DECODE. -/
theorem yields_continueBody_invAt {r : Reply (Engine × List Byte)} (h : InCommand c s)
    (hr : ∀ e line p, r = .ok (e, line) p → e.Suits s ∧ e.Settled line) :
    Yields (continueBody s r) (InvAt c) := by
  have hfail := failsInto_invAt h
  refine yields_continueBody hfail (fun e line p he hy => ?_) fun e line p he hy => ?_
  · obtain ⟨hsuits, hset⟩ := hr e line p he
    exact invAt_withBody h (engineOk_iff.mpr ⟨hsuits, hset.staged, hy, hset.atCode hy⟩)
  · obtain ⟨⟨-, -, hbuild, -⟩, hset⟩ := hr e line p he
    have hrows : e.y = e.lines := le_antisymm hset.y_le (by omega)
    have hcfg := h.cfg_eq
    refine yields_finishBody hfail (fun _ => ?_) (fun hc => ?_) fun hc r q hpal => ?_
    · exact invAt_success hcfg h.cfg_ok h.image_ok
    · obtain ⟨hgeo, hlines, -⟩ := hbuild (by simp [hc])
      have hpix : e.staged.pix.length = e.staged.area := by
        rw [hset.staged.2 hc, hrows, hlines, Nat.mul_comm]; rfl
      exact invAt_success (by simpa using hcfg) h.cfg_ok (imageOk_commit_truecolor rfl (hcfg ▸ hgeo) hpix)
    · obtain ⟨hgeo, hlines, -⟩ := hbuild (by simp [hc])
      obtain ⟨hpalLen, halpha⟩ := resolvePalette_ok hpal
      have hidx : e.staged.idx.length = e.staged.area := by
        rw [hset.staged.1 hc, hrows, hlines, Nat.mul_comm]; rfl
      exact invAt_success (by simpa using hcfg) h.cfg_ok
        (imageOk_commit_indexed rfl (hcfg ▸ hgeo) hpalLen halpha hidx rfl)

theorem yields_codeStep_invAt {run : Instr → State → Outcome State Fault Refusal} (hrun : RunsCodes run)
    (h : InvAt c s) {e : Engine} (he : s.phase = .body e) : Yields (codeStep run s) (InvAt c) := by
  obtain ⟨hinv, rfl⟩ := h
  obtain ⟨-, -, -, hbusy, -, hphase⟩ := id hinv
  have hin := inCommand_of_busy hinv (hbusy.mpr (by simp [he]))
  obtain ⟨hsuits, hstaged, hy, hat⟩ := engineOk_iff.mp (hphase e (by simp [he, Phase.engine]))
  refine yields_codeStep hrun he (failsInto_invAt hin) fun e₁ e' line' p hdone => ?_
  have hin' : InCommand s.cfg (withBody e₁ line' p s) := ⟨hin.cfg_eq, hin.cfg_ok, hin.image_ok, hin.running⟩
  refine yields_continueBody_invAt hin' fun e'' line'' q hset => ?_
  exact ⟨suits_of_sameBody ((codeDone_sameBody hdone).trans (settle_sameBody hset)) hsuits,
    settle_settled hset rfl (codeDone_fits hdone hy hat hstaged)⟩

theorem yields_finishCommand_invAt (h : InvAt c s) : Yields (finishCommand s) (InvAt c) :=
  yields_finishCommand (fun _ _ hs he => yields_codeStep_invAt runsCodes_runCode hs he) h

theorem yields_wholeCommand_invAt {o : Outcome State Fault Refusal} (h : Yields o (InvAt c)) :
    Yields (wholeCommand o) (InvAt c) :=
  yields_wholeCommand (fun _ _ hs he => yields_codeStep_invAt runsCodes_runCode hs he) h

/-! ### The commands -/

theorem decodeEngine_suits {ix : Draw} {info : HeaderInfo} (hs : s.hdr = info.hdr)
    (hgeo : geometryOk s.cfg info.w info.h info.hdr.bpl.toNat)
    (hplanes : info.hdr.planes = 1#8 ∨ info.hdr.planes = 3#8) : (decodeEngine ix info).Suits s := by
  obtain ⟨hw, hh, hb⟩ := stagedImage_geometry hgeo
  have hstaged : (decodeEngine ix info).staged = stagedImage info.w info.h info.hdr.bpl := rfl
  have hlen : (decodeEngine ix info).lineLen = info.hdr.planes.toNat * info.hdr.bpl.toNat := rfl
  have hlines : (decodeEngine ix info).lines = info.h := rfl
  have hbpl := info.hdr.bpl.isLt
  simp only [Engine.Suits, hstaged, hw, hh, hb, hs, hlen, hlines]
  obtain hp | hp := hplanes <;> simp [hp, decodeEngine, lineBound, stagedImage] <;> exact ⟨by omega, hgeo⟩

theorem degenerateImage_ok {info : HeaderInfo} (hgeo : geometryOk c info.w info.h info.hdr.bpl.toNat) :
    Image.Ok c (commitImage (degenerateImage info) s).image := by
  obtain ⟨hw, hh, hb⟩ := stagedImage_geometry hgeo
  refine imageOk_commit_indexed rfl ?_ (fallbackPalette_length _) (fallbackPalette_alphaForced _) ?_ rfl
  · show geometryOk c (stagedImage info.w info.h info.hdr.bpl).w (stagedImage info.w info.h info.hdr.bpl).h
      (stagedImage info.w info.h info.hdr.bpl).bplNat
    rwa [hw, hh, hb]
  · show _ = (stagedImage info.w info.h info.hdr.bpl).w * (stagedImage info.w info.h info.hdr.bpl).h
    rw [hw, hh]
    exact List.length_replicate

theorem yields_beginDecode_invAt (h : InCommand c s) : Yields (beginDecode s) (InvAt c) := by
  have hlatched : ∀ hdr, InCommand c { s with hdr := hdr } := fun _ =>
    ⟨h.cfg_eq, h.cfg_ok, h.image_ok, h.running⟩
  refine yields_beginDecode (failsInto_invAt h) (fun info q _ => failsInto_invAt (hlatched info.hdr))
    (fun info q p hread => ?_) fun info q p hread => ?_
  · obtain ⟨hgeo, -⟩ := headerRead_ok hread
    exact invAt_success (by simpa using h.cfg_eq) h.cfg_ok
      (degenerateImage_ok (s := { s with hdr := info.hdr }) (h.cfg_eq ▸ hgeo))
  · obtain ⟨hgeo, hplanes⟩ := headerRead_ok hread
    refine yields_continueBody_invAt (hlatched info.hdr) fun e line p henter => ?_
    have hsuits : (decodeEngine s.freeIx info).Suits { s with hdr := info.hdr } :=
      decodeEngine_suits rfl hgeo hplanes
    have hstaged : (decodeEngine s.freeIx info).Staged := by simp [Engine.Staged, decodeEngine, stagedImage]
    exact ⟨suits_of_sameBody (enterBody_sameBody henter) hsuits, enterBody_settled henter rfl hstaged⟩

theorem yields_beginRleDecode_invAt (h : InCommand c s) : Yields (beginRleDecode s) (InvAt c) := by
  refine yields_continueBody_invAt h fun e line p hr => ?_
  obtain ⟨_, _, hreq, henter⟩ := andThen_eq_ok.mp hr
  obtain ⟨hlen, -⟩ := require_eq_ok.mp hreq
  have hline : s.arg0.toNat ≤ lineBound := (of_decide_eq_true hlen).2
  have hsuits : (rawEngine s).Suits s := by simp [Engine.Suits, rawEngine, hline]
  have hstaged : (rawEngine s).Staged := by simp [Engine.Staged, rawEngine]
  exact ⟨suits_of_sameBody (enterBody_sameBody henter) hsuits, enterBody_settled henter rfl hstaged⟩

theorem yields_noEffect_invAt {α : Type} {r : State → Reply α} (h : InCommand c (prologue s)) :
    Yields (runCommand s fun s => conclude s (r s) noEffect) (InvAt c) :=
  yields_runCommand fun _ => yields_conclude_invAt h fun _ _ _ => ⟨rfl, h.image_ok⟩

theorem yields_execLoadIndexed_invAt (h : InCommand c (prologue s)) : Yields (execLoadIndexed s) (InvAt c) := by
  refine yields_runCommand fun _ => yields_conclude_invAt h fun r p hr => ⟨commitImage_cfg _ _, ?_⟩
  simp only [andThen_eq_ok] at hr
  obtain ⟨_, _, hcheck, pal, _, -, idx, _, hidx, _, _, hheight, hres⟩ := hr
  obtain ⟨rfl, -⟩ := Reply.ok.inj hres
  exact imageOk_commit_indexed rfl (h.cfg_eq ▸ geometryOk_of_checks hcheck hheight) (paletteOfBytes_length _)
    (paletteOfBytes_alphaForced _) (readData_length hidx) rfl

theorem yields_execLoadTruecolor_invAt (h : InCommand c (prologue s)) :
    Yields (execLoadTruecolor s) (InvAt c) := by
  refine yields_runCommand fun _ => yields_conclude_invAt h fun r p hr => ⟨commitImage_cfg _ _, ?_⟩
  simp only [andThen_eq_ok] at hr
  obtain ⟨_, _, hcheck, d, _, -, _, _, hheight, -⟩ := hr
  exact imageOk_commit_truecolor rfl (h.cfg_eq ▸ geometryOk_of_checks hcheck hheight) (samplesOfBytes_length _ _)

theorem yields_execCode_of_ready {n : Nat} {v : Byte} (h : s.Ready) : Yields (execCode n v s) (InvAt c) := by
  rw [execCode_no_body fun e he => by simp [State.Ready, he, Phase.ready] at h]
  exact yields_refused _

/-- Every instruction begun from a state of the invariant keeps it. -/
theorem yields_exec_invAt (i : Instr) (hready : s.Ready) (h : InCommand c (prologue s)) :
    Yields (exec i s) (InvAt c) := by
  unfold exec
  cases i with
  | lit v => exact yields_execCode_of_ready hready
  | run n v => exact yields_execCode_of_ready hready
  | decode => exact yields_runCommand fun _ => yields_wholeCommand_invAt (yields_beginDecode_invAt h)
  | rleDecode => exact yields_runCommand fun _ => yields_wholeCommand_invAt (yields_beginRleDecode_invAt h)
  | probe => exact yields_runCommand fun _ => yields_conclude_invAt h fun _ _ _ => ⟨rfl, h.image_ok⟩
  | loadIndexed => exact yields_execLoadIndexed_invAt h
  | loadTruecolor => exact yields_execLoadTruecolor_invAt h
  | clear =>
    exact yields_runCommand fun _ => yields_conclude_invAt h fun _ _ _ => ⟨rfl, imageOk_clearedImage _ h.image_ok⟩
  | nop | rleEncode | readIndex | readPalette | readPixels | writePcx | writeIco | writeBmp | writeBmpa =>
    exact yields_noEffect_invAt h

/-! ### The core's move -/

theorem yields_performCommand_invAt (op : Byte) (hready : s.Ready) (h : InCommand c (prologue s)) :
    Yields (performCommand op s) (InvAt c) := by
  unfold performCommand
  split
  · exact yields_exec_invAt _ hready h
  · exact yields_runCommand fun _ => yields_next.mpr ((failsInto_invAt h).1 _ _)

theorem yields_beginCommand_invAt (op : Byte) (hready : s.Ready) (h : InCommand c (prologue s)) :
    Yields (beginCommand op s) (InvAt c) := by
  unfold beginCommand
  split
  · exact yields_runCommand fun _ => yields_beginDecode_invAt h
  · exact yields_runCommand fun _ => yields_beginRleDecode_invAt h
  · exact yields_performCommand_invAt op hready h

theorem yields_coreMove_invAt (g : Grain) (h : s.Inv) : Yields (coreMove g s) (InvAt s.cfg) := by
  have hin := inCommand_prologue h
  unfold coreMove
  split
  · exact yields_next.mpr ⟨h, rfl⟩
  · exact yields_next.mpr ⟨h, rfl⟩
  · next op hp =>
    have hready : s.Ready := by simp [State.Ready, hp, Phase.ready]
    cases g with
    | command => exact yields_performCommand_invAt op hready hin
    | code => exact yields_beginCommand_invAt op hready hin
  · next e hp =>
    cases g with
    | command => exact yields_finishCommand_invAt ⟨h, rfl⟩
    | code => exact yields_codeStep_invAt runsCodes_exec ⟨h, rfl⟩ hp

/-! ### The host's moves -/

theorem phase_idle_of_not_busy (h : s.Inv) (hb : s.status.busy = false) : s.phase = .idle := by
  obtain ⟨-, -, -, hbusy, -⟩ := h
  by_contra hp
  simp [hbusy.mpr hp] at hb

/-- No body runs while the core is idle, so the operands may change. -/
theorem inv_writeReg (h : s.Inv) (hb : s.status.busy = false) (r : Reg) (v : Word) : (writeReg s r v).Inv := by
  have hidle := phase_idle_of_not_busy h hb
  obtain ⟨hcfg, himage, hlegal, hbusy, hcounts, -⟩ := h
  refine ⟨by simpa, by simpa, by simpa, by simpa, by simpa, ?_⟩
  rintro e he
  simp [hidle, Phase.engine] at he

theorem inv_acceptCommand (h : s.Inv) (op : Byte) : (acceptCommand op s).Inv := by
  obtain ⟨hcfg, himage, -⟩ := h
  refine ⟨hcfg, himage, ⟨fun _ => rfl, fun _ => rfl⟩, by simp, by simp, nofun⟩

theorem inv_resetCore (h : s.Inv) : (resetCore s).Inv :=
  ⟨h.1, imageOk_none _, ⟨nofun, fun _ => rfl⟩, by simp [State.reset], by simp [State.reset], nofun⟩

theorem yields_hostRead_invAt (width offset : Nat) (h : s.Inv) : Yields (hostRead width offset s) (InvAt s.cfg) := by
  unfold hostRead
  split
  · exact yields_refused _
  · refine yields_next.mpr ?_
    unfold readAt
    split <;> exact ⟨h, rfl⟩

theorem yields_writeAt_invAt (r : Reg) (v : Word) (h : s.Inv) : Yields (writeAt r v s) (InvAt s.cfg) := by
  unfold writeAt writeCmd
  split_ifs with hcmd hbusy hmbz hop
  · exact yields_fault _
  · exact yields_next.mpr ⟨h, rfl⟩
  · exact yields_next.mpr ⟨inv_acceptCommand h _, rfl⟩
  · exact yields_fault _
  · refine yields_next.mpr ⟨?_, writeReg_cfg s r v⟩
    cases ho : r.isOperand with
    | false => rw [writeReg_of_not_operand ho]; exact h
    | true => exact inv_writeReg h (by simpa [ho] using hop) r v

theorem yields_hostWrite_invAt (width offset : Nat) (v : Word) (h : s.Inv) :
    Yields (hostWrite width offset v s) (InvAt s.cfg) := by
  unfold hostWrite
  split
  · exact yields_refused _
  · exact yields_writeAt_invAt _ v h

theorem yields_hostAttach_invAt (bytes : List Byte) (h : s.Inv) : Yields (hostAttach bytes s) (InvAt s.cfg) := by
  unfold hostAttach
  split_ifs
  · exact yields_refused _
  · exact yields_refused _
  · exact yields_next.mpr ⟨h, rfl⟩

theorem invAt_hostCollect (h : s.Inv) : InvAt s.cfg (hostCollect s) := by
  unfold hostCollect
  split_ifs <;> exact ⟨h, rfl⟩

theorem yields_hostMove_invAt (op : HostOp) (h : s.Inv) : Yields (hostMove op s) (InvAt s.cfg) := by
  unfold hostMove
  cases op with
  | attach bytes => exact yields_hostAttach_invAt bytes h
  | portDraws ds => exact yields_next.mpr ⟨h, rfl⟩
  | read width offset => exact yields_hostRead_invAt width offset h
  | write width offset v => exact yields_hostWrite_invAt width offset v h
  | busRead address =>
    dsimp only
    split
    · exact yields_hostRead_invAt 32 _ h
    · exact yields_refused _
  | busWrite address v =>
    dsimp only
    split
    · exact yields_hostWrite_invAt 32 _ v h
    · exact yields_refused _
  | wait =>
    dsimp only
    split
    · exact yields_next.mpr ⟨h, rfl⟩
    · exact yields_coreMove_invAt (s := { s with host := .wait :: s.host }) .command h
  | grant g => exact yields_coreMove_invAt g h
  | collect => exact yields_next.mpr (invAt_hostCollect h)
  | reset => exact yields_next.mpr ⟨inv_resetCore h, rfl⟩

theorem yields_step_invAt (h : s.Inv) : Yields (step s) (InvAt s.cfg) := by
  unfold step agentsMove
  split
  · exact yields_coreMove_invAt .command h
  · next op rest _ => exact yields_hostMove_invAt (s := { s with host := rest }) op h

end Commands

end Sys2Proof.Machine

namespace Sys2Proof.Proofs

open Sys2Proof Sys2Proof.Machine Host

/-- Settles O52: a host access keeps what a command reads, and a command ends, fails, is never answered, or
rests at a code boundary whose rows are staged. -/
theorem stepKeepsInvariant : Obligations.StepKeepsInvariant := by
  unfold Obligations.StepKeepsInvariant
  exact fun s t h ht => yields_step_invAt h t ht

end Sys2Proof.Proofs
end

section
/-! PROOFS. What a piece of a command can come to, request by request (spec/20_memory.md R72 to R77, R82):
rules over its result, its error, and whether a request is left unanswered. -/

namespace Sys2Proof.Machine

open Host

/-! ### Rules over a piece -/

/-- The piece comes to a result with `Q` or to an error with `E`, or is refused; where a request is never
answered, `W` holds. -/
def Reply.Post {α : Type} (r : Reply α) (Q : α → Ports → Prop) (E : CmdError → Ports → Prop) (W : Prop) : Prop :=
  match r with
  | .ok a p => Q a p
  | .error e p => E e p
  | .stall _ => W
  | .refuse _ => True

section Post
variable {α β : Type} {Q Q' : α → Ports → Prop} {E E' : CmdError → Ports → Prop} {W : Prop}

@[simp] theorem post_ok {a : α} {p : Ports} : (Reply.ok a p).Post Q E W ↔ Q a p := Iff.rfl
@[simp] theorem post_error {e : CmdError} {p : Ports} : (Reply.error (α := α) e p).Post Q E W ↔ E e p := Iff.rfl
@[simp] theorem post_stall {p : Ports} : (Reply.stall (α := α) p).Post Q E W ↔ W := Iff.rfl
@[simp] theorem post_refuse {why : Refusal} : (Reply.refuse (α := α) why).Post Q E W ↔ True := Iff.rfl

theorem Reply.Post.of_ok {r : Reply α} {a : α} {p : Ports} (h : r.Post Q E W) (hr : r = .ok a p) : Q a p := by
  subst hr; exact h

theorem Reply.Post.mono {r : Reply α} (h : r.Post Q E W) (hQ : ∀ a p, r = .ok a p → Q a p → Q' a p)
    (hE : ∀ e p, E e p → E' e p) : r.Post Q' E' W := by
  cases r with
  | ok a p => exact hQ a p rfl h
  | error e p => exact hE e p h
  | stall p => exact h
  | refuse why => trivial

theorem post_andThen {r : Reply α} {k : α → Ports → Reply β} {R : β → Ports → Prop} (hr : r.Post Q E W)
    (hk : ∀ a p, r = .ok a p → Q a p → (k a p).Post R E W) : (r.andThen k).Post R E W := by
  cases r with
  | ok a p => exact hk a p rfl hr
  | error e p => exact hr
  | stall p => exact hr
  | refuse why => trivial

theorem post_inRange {access : Option α} {p : Ports} :
    (inRange access p).Post (fun a q => access = some a ∧ q = p) E W := by
  cases access <;> simp

end Post

/-! ### The bytes of the input (R73, R74, spec/41_rle_decoder.md R183) -/

/-- A byte is taken from the front of the input, or there is none; the output stays. -/
theorem readByte_post (p : Ports) :
    (readByte p).Post
      (fun c q => p.input = c.toList ++ q.input ∧ (c = none → q.input = []) ∧ q.output = p.output)
      (fun e q => e = .accessIn ∧ q.output = p.output) True := by
  have served : ∀ q : Ports, q.input = p.input → q.output = p.output →
      Reply.Post (match q.input with
        | [] => .ok none q
        | b :: rest => .ok (some b) { q with input := rest, cursor := q.cursor + 1 })
      (fun c q => p.input = c.toList ++ q.input ∧ (c = none → q.input = []) ∧ q.output = p.output)
      (fun e q => e = .accessIn ∧ q.output = p.output) True := by
    intro q hin hout
    rw [← hin]
    split <;> simp_all
  unfold readByte answer
  split
  · exact served p rfl rfl
  · exact served _ rfl rfl
  · exact ⟨rfl, rfl⟩
  · trivial

/-- A fetch takes one code from the front of the input, or finds none and takes what is left of it. -/
theorem fetchCode_post (p : Ports) :
    (fetchCode p).Post
      (fun c q => q.output = p.output ∧
        match c with
        | some i => decodeCode p.input = .ok (i, q.input)
        | none => q.input = [] ∧ ∃ why, decodeCode p.input = .error why)
      (fun e q => e = .accessIn ∧ q.output = p.output) True := by
  refine post_andThen (readByte_post p) fun c q _ ⟨hin, hend, hout⟩ => ?_
  cases c with
  | none => exact ⟨hout, hend rfl, .noByte, by simp [hin, hend rfl, decodeCode]⟩
  | some b =>
    cases hb : isMarker b with
    | false =>
      simp only [hb, decode_code_of_not_marker hb]
      exact ⟨hout, by simp [hin, decodeCode, hb]⟩
    | true =>
      simp only [hb, if_true]
      refine post_andThen ((readByte_post q).mono (fun _ _ _ h => h) fun _ _ h => ⟨h.1, h.2.trans hout⟩)
        fun d q' _ ⟨hin', hend', hout'⟩ => ?_
      cases d with
      | none => exact ⟨hout'.trans hout, hend' rfl, .missingValue, by simp [hin, hin', hend' rfl, decodeCode, hb]⟩
      | some v =>
        simp only [decode_code_of_marker hb]
        exact ⟨hout'.trans hout, by simp [hin, hin', decodeCode, hb]⟩

/-- A row of requests that are all served appends every part. -/
theorem sendParts_of_sent {parts : List (List Byte)} {ds : List PortDraw} (h : (sendParts parts ds).2.1 = .sent) :
    (sendParts parts ds).1 = parts.flatten := by
  induction parts generalizing ds with
  | nil => rfl
  | cons part parts ih =>
    rcases ds with _ | ⟨_ | m | m, ds⟩
    · exact congrArg (part ++ ·) (ih h)
    · exact congrArg (part ++ ·) (ih h)
    · simp [sendParts] at h
    · simp [sendParts] at h

/-- A row of requests appends its bytes, or a first part of them where one of it fails (R77, R82). -/
theorem writeAll_post (parts : List (List Byte)) (p : Ports) :
    (writeAll parts p).Post (fun _ q => q.input = p.input ∧ q.output = p.output ++ parts.flatten)
      (fun e q => e = .accessOut ∧ ∃ k, q.output = p.output ++ parts.flatten.take k) True := by
  have hprefix := List.prefix_iff_eq_take.mp (sendParts_isPrefix parts p.draws)
  unfold writeAll
  cases hs : (sendParts parts p.draws).2.1 with
  | sent => simpa [hs] using sendParts_of_sent hs
  | failed => simpa [hs] using ⟨_, hprefix⟩
  | silent => simp [hs]

/-- A decoded code takes at least a byte (spec/41_rle_decoder.md R195). -/
theorem decodeCode_length {bytes left : List Byte} {i : Instr} (h : decodeCode bytes = .ok (i, left)) :
    left.length < bytes.length := by
  unfold decodeCode at h
  split at h
  · simp at h
  · split at h
    · split at h
      · simp at h
      · next rest => simp at h; simp [← h.2]
    · simp at h; simp [h.2]

/-! ### Pieces whose every request is answered (R76) -/

/-- No coming request goes unanswered. -/
abbrev Ports.NoSilence (p : Ports) : Prop := ∀ d ∈ p.draws, d.answered = true

/-- No request of the piece goes unanswered, and none after it. -/
def Reply.Answers {α : Type} (r : Reply α) : Prop := r.Post (fun _ p => p.NoSilence) (fun _ _ => True) False

section Answers
variable {α β : Type} {p : Ports}

@[simp] theorem answers_ok {a : α} : (Reply.ok a p).Answers ↔ p.NoSilence := Iff.rfl
@[simp] theorem answers_error {e : CmdError} : (Reply.error (α := α) e p).Answers := trivial
@[simp] theorem answers_refuse {why : Refusal} : (Reply.refuse (α := α) why).Answers := trivial

theorem answers_andThen {r : Reply α} {k : α → Ports → Reply β} (hr : r.Answers)
    (hk : ∀ a p, p.NoSilence → (k a p).Answers) : (r.andThen k).Answers :=
  post_andThen hr fun a p _ h => hk a p h

theorem answers_answer {served : Ports → Reply α} {failed : Nat → Ports → Reply α} (h : p.NoSilence)
    (hserved : ∀ q : Ports, q.NoSilence → (served q).Answers)
    (hfailed : ∀ n (q : Ports), q.NoSilence → (failed n q).Answers) : (answer p served failed).Answers := by
  obtain ⟨input, cursor, output, draws⟩ := p
  cases draws with
  | nil => exact hserved _ h
  | cons d ds =>
    have hds : Ports.NoSilence ⟨input, cursor, output, ds⟩ := fun d' hd => h d' (List.mem_cons_of_mem _ hd)
    cases d with
    | ok => exact hserved _ hds
    | fail n => exact hfailed n _ hds
    | never n => exact absurd (h (.never n) (by simp)) (by simp [PortDraw.answered])

theorem answers_readExact (h : p.NoSilence) (n : Nat) : (readExact n p).Answers :=
  answers_answer h (fun q hq => by split <;> exact hq) fun _ _ _ => trivial

theorem answers_readByte (h : p.NoSilence) : (readByte p).Answers :=
  answers_answer h (fun q hq => by split <;> exact hq) fun _ _ _ => trivial

theorem answers_skip (h : p.NoSilence) (n : Nat) : (skip n p).Answers :=
  answers_answer h (fun q hq => by split <;> exact hq) fun _ _ _ => trivial

theorem answers_readBytesOr (n : Nat) (h : p.NoSilence) : (readBytesOr n p).Answers := by
  induction n generalizing p with
  | zero => exact h
  | succ n ih =>
    exact answers_andThen (answers_readByte h) fun _ _ hq => answers_andThen (ih hq) fun _ _ hq' => hq'

theorem answers_scanLoop (n : Nat) (h : p.NoSilence) : (scanLoop n p).Answers := by
  induction n generalizing p with
  | zero => exact h
  | succ n ih =>
    refine answers_andThen (answers_readByte h) fun c q hq => ?_
    cases c with
    | none => exact hq
    | some b => dsimp only; split_ifs; exacts [ih hq, hq, hq]

theorem answers_resolvePalette (fb : List Rgb) (h : p.NoSilence) : (resolvePalette fb p).Answers := by
  refine answers_andThen (answers_scanLoop _ h) fun found q hq => ?_
  split
  · exact answers_andThen (answers_readBytesOr 768 hq) fun _ _ hq' => hq'
  · exact hq

theorem sendParts_answered (parts : List (List Byte)) {ds : List PortDraw} (h : ∀ d ∈ ds, d.answered = true) :
    (sendParts parts ds).2.1 ≠ .silent ∧ ∀ d ∈ (sendParts parts ds).2.2, d.answered = true := by
  induction parts generalizing ds with
  | nil => exact ⟨by simp [sendParts], h⟩
  | cons part parts ih =>
    cases ds with
    | nil => exact ih h
    | cons d ds =>
      have hds : ∀ d ∈ ds, d.answered = true := fun d' hd => h d' (List.mem_cons_of_mem _ hd)
      cases d with
      | ok => exact ih hds
      | fail m => exact ⟨by simp [sendParts], hds⟩
      | never m => exact absurd (h (.never m) (by simp)) (by simp [PortDraw.answered])

theorem answers_writeAll (parts : List (List Byte)) (h : p.NoSilence) : (writeAll parts p).Answers := by
  obtain ⟨hend, hds⟩ := sendParts_answered parts h
  unfold writeAll
  cases hs : (sendParts parts p.draws).2.1 with
  | sent => simpa [hs] using hds
  | failed => simp [hs]
  | silent => exact absurd hs hend

theorem answers_inRange {access : Option α} (h : p.NoSilence) : (inRange access p).Answers := by
  cases access; exacts [trivial, h]

theorem answers_require {c : Bool} {e : CmdError} (h : p.NoSilence) : (require c e p).Answers := by
  cases c; exacts [trivial, h]

theorem answers_requireImage {img : Image} (h : p.NoSilence) : (requireImage img p).Answers :=
  answers_andThen (answers_require h) fun _ _ hq => by split; exacts [hq, trivial]

theorem answers_requireIndexed {img : Image} (h : p.NoSilence) : (requireIndexed img p).Answers :=
  answers_andThen (answers_require h) fun _ _ hq => answers_andThen (answers_require hq) fun _ _ hq' => by
    split; exacts [hq', trivial]

theorem answers_requireIcon {img : Image} (h : p.NoSilence) : (requireIcon img p).Answers :=
  answers_andThen (answers_requireImage h) fun _ _ hq => answers_require hq

theorem answers_readData (n : Nat) (h : p.NoSilence) : (readData n p).Answers :=
  answers_andThen (answers_readExact h n) fun r _ hq => by cases r; exacts [trivial, hq]

theorem answers_checkLoad {cfg : Config} {g : LoadGeometry} (h : p.NoSilence) : (checkLoad cfg g p).Answers :=
  answers_andThen (answers_require h) fun _ _ hq => answers_andThen (answers_require hq) fun _ _ hq' =>
    answers_require hq'

theorem answers_checkHeader {cfg : Config} {hdr : Header} (h : p.NoSilence) : (checkHeader cfg hdr p).Answers :=
  answers_andThen (answers_require h) fun _ _ h => answers_andThen (answers_require h) fun _ _ h =>
    answers_andThen (answers_require h) fun _ _ h => answers_andThen (answers_require h) fun _ _ h =>
      answers_andThen (answers_require h) fun _ _ h => answers_andThen (answers_require h) fun _ _ h => h

theorem answers_headerRead {cfg : Config} (h : p.NoSilence) : (headerRead cfg p).Answers :=
  answers_andThen (answers_readExact h 68) fun r _ hq => by cases r; exacts [trivial, answers_checkHeader hq]

theorem answers_emitLine (e : Engine) (line : List Byte) (h : p.NoSilence) : (emitLine e line p).Answers := by
  unfold emitLine
  split
  · exact answers_andThen (answers_inRange h) fun _ _ hq => answers_andThen (answers_inRange hq) fun _ _ hq' => hq'
  · exact answers_andThen (answers_inRange h) fun _ _ hq => answers_andThen (answers_inRange hq) fun _ _ hq' => hq'
  · exact answers_andThen (answers_inRange h) fun _ _ hq => answers_andThen (answers_writeAll _ hq) fun _ _ hq' => hq'

theorem answers_settle (cfg : Config) (n : Nat) (e : Engine) (line : List Byte) (h : p.NoSilence) :
    (settle cfg n e line p).Answers := by
  induction n generalizing e line p with
  | zero => exact h
  | succ n ih =>
    unfold settle
    split
    · exact h
    · refine answers_andThen (answers_emitLine e line h) fun e' q hq => ?_
      dsimp only
      split
      · exact hq
      · exact answers_andThen (answers_inRange hq) fun r q' hq' => ih r.1 r.2 hq'

theorem answers_enterBody (cfg : Config) (e : Engine) (h : p.NoSilence) : (enterBody cfg e p).Answers := by
  unfold enterBody
  split
  · exact h
  · exact answers_andThen (answers_inRange h) fun r q hq => answers_settle cfg e.lines r.1 r.2 hq

theorem answers_fetchCode (h : p.NoSilence) : (fetchCode p).Answers := by
  refine answers_andThen (answers_readByte h) fun c q hq => ?_
  cases c with
  | none => exact hq
  | some b =>
    dsimp only
    split
    · exact answers_andThen (answers_readByte hq) fun d q' hq' => by cases d <;> exact hq'
    · exact hq

end Answers

end Sys2Proof.Machine
end

section
/-! PROOFS. A command with a body as one piece (spec/41_rle_decoder.md R184): its codes one after another,
and what of the scratch state it depends on (spec/20_memory.md R85, spec/10_state.md R59 to R61). -/

namespace Sys2Proof.Machine

open Host

/-! ### The state of a command's scratch (spec/10_state.md R59 to R61) -/

/-- The state with other scratch: the header latch, the scanline, the phase and the ports. -/
def State.withScratch (s : State) (hdr : Header) (line : List Byte) (ph : Phase) (p : Ports) : State :=
  { s with hdr := hdr, line := line, phase := ph, ports := p }

section Scratch
variable {α : Type} (s : State) (hdr : Header) (line : List Byte) (ph : Phase) (p : Ports)

@[simp] theorem endCommand_withScratch (st : Status) (q : Ports) :
    endCommand st q (s.withScratch hdr line ph p) = endCommand st q s := rfl

@[simp] theorem setResults_withScratch (w h : Nat) (r : Res2) :
    setResults w h r (s.withScratch hdr line ph p) = (setResults w h r s).withScratch hdr line ph p := rfl

@[simp] theorem commitImage_withScratch (img : Image) :
    commitImage img (s.withScratch hdr line ph p) = (commitImage img s).withScratch hdr line ph p := by
  unfold commitImage; split <;> rfl

theorem endCommand_commit_withScratch (st : Status) (q : Ports) (img : Image) :
    endCommand st q (commitImage img (s.withScratch hdr line ph p)) = endCommand st q (commitImage img s) := by
  simp

/-- A command that no port leaves waiting ends in the same state whatever the scratch was, if its effect does
not depend on it. -/
theorem conclude_withScratch {r : Reply α} {effect effect' : α → State → State} (hr : r.Answers)
    (heffect : ∀ a q, endCommand Status.success q (effect' a (s.withScratch hdr line ph p)) =
      endCommand Status.success q (effect a s)) :
    conclude (s.withScratch hdr line ph p) r effect' = conclude s r effect := by
  cases r with
  | ok a q => exact congrArg Outcome.next (heffect a q)
  | error e q => rfl
  | stall q => exact hr.elim
  | refuse why => rfl

/-- The end of a body reads the header latch only for DECODE's palette and results. -/
theorem finishBody_withScratch {e : Engine} {q : Ports} (hq : q.NoSilence)
    (hc : e.consumer = .raw ∨ hdr = s.hdr) : finishBody (s.withScratch hdr line ph p) e q = finishBody s e q := by
  unfold finishBody
  split
  · exact conclude_withScratch s hdr line ph p hq fun _ _ => rfl
  · next he =>
    obtain rfl := hc.resolve_left (by simp [he])
    exact conclude_withScratch s s.hdr line ph p hq fun _ _ => by
      rw [commitImage_withScratch, setResults_withScratch, endCommand_withScratch]; rfl
  · next he =>
    obtain rfl := hc.resolve_left (by simp [he])
    exact conclude_withScratch s s.hdr line ph p (answers_resolvePalette _ hq) fun _ _ => by
      rw [commitImage_withScratch, setResults_withScratch, endCommand_withScratch]; rfl

/-- A body that no port leaves waiting goes on the same whatever the scratch was: only one that stages an Image,
or is not over, needs the header latch. -/
theorem continueBody_withScratch {r : Reply (Engine × List Byte)} (hr : r.Answers)
    (hhdr : hdr = s.hdr ∨ ∀ e l q, r = .ok (e, l) q → ¬ e.y < e.lines ∧ e.consumer = .raw) :
    continueBody (s.withScratch hdr line ph p) r = continueBody s r := by
  cases r with
  | error e q => rfl
  | stall q => exact hr.elim
  | refuse why => rfl
  | ok b q =>
    obtain ⟨e, l⟩ := b
    by_cases hy : e.y < e.lines
    · obtain rfl := hhdr.resolve_right fun hover => (hover e l q rfl).1 hy
      simp only [continueBody, hy, if_true]
      rfl
    · simp only [continueBody, hy, if_false]
      exact finishBody_withScratch s hdr line ph p hr (hhdr.symm.imp_left fun hover => (hover e l q rfl).2)

end Scratch

/-! ### The codes of a body as one piece -/

/-- `rem <- n; val <- v` of a code form (R180, R181); no other instruction is a code. -/
def Engine.load (e : Engine) (i : Instr) : Engine :=
  { e with
    rem := match i with | .lit _ => 1 | .run n _ => n.toNat | _ => 0
    val := match i with | .lit v => v | .run _ v => v | _ => 0#8 }

/-- One code of a body, up to the next boundary or past the last scanline (R183 to R185). -/
def codeReply (cfg : Config) (e : Engine) (line : List Byte) (p : Ports) : Reply (Engine × List Byte) :=
  (fetchCode p).andThen fun c p =>
    match c with
    | none => settle cfg (e.lines - e.y) { e with stopped := true } line p
    | some i =>
      (inRange (writeCopies (e.load i) line) p).andThen fun r p => settle cfg (r.1.lines - r.1.y) r.1 r.2 p

/-- The codes of a body while scanlines are left, at most `n` of them. -/
def bodyReply (cfg : Config) : Nat → Engine → List Byte → Ports → Reply (Engine × List Byte)
  | 0, e, line, p => .ok (e, line) p
  | n + 1, e, line, p =>
    if e.y < e.lines then (codeReply cfg e line p).andThen fun r p => bodyReply cfg n r.1 r.2 p
    else .ok (e, line) p

/-- DecodeBody from its entry to its end (R184). -/
def runBody (cfg : Config) (e : Engine) (p : Ports) : Reply (Engine × List Byte) :=
  (enterBody cfg e p).andThen fun r p => bodyReply cfg (p.input.length + 1) r.1 r.2 p

section Body
variable {cfg : Config} {s : State} {e e' : Engine} {line line' : List Byte} {p q : Ports}

theorem bodyReply_of_over (n : Nat) (line : List Byte) (p : Ports) (h : ¬ e.y < e.lines) :
    bodyReply cfg n e line p = .ok (e, line) p := by
  cases n with
  | zero => rfl
  | succ n => simp [bodyReply, h]

/-- The machine's code step is the piece, up to what a silent port leaves of the scratch (log 6). -/
theorem codeStep_eq_continueBody {run : Instr → State → Outcome State Fault Refusal} (hrun : RunsCodes run)
    (hs : s.phase = .body e) :
    ∃ line ph p, codeStep run s =
      continueBody (s.withScratch s.hdr line ph p) (codeReply s.cfg e s.line s.ports) := by
  unfold codeStep codeReply
  split
  case h_2 h => exact absurd hs (h e)
  next e₀ he₀ =>
  obtain rfl : e₀ = e := Phase.body.inj (he₀.symm.trans hs)
  cases hf : fetchCode s.ports with
  | error er q => exact ⟨s.line, s.phase, s.ports, rfl⟩
  | stall q => exact ⟨s.line, s.phase, s.ports, rfl⟩
  | refuse why => exact ⟨s.line, s.phase, s.ports, rfl⟩
  | ok c q =>
    cases c with
    | none => exact ⟨s.line, s.phase, q, rfl⟩
    | some i =>
      have hcode : run i { s with ports := q } =
          match writeCopies (e₀.load i) s.line with
          | some (e', line') => .next (withBody e' line' q s)
          | none => .refused .bufferRange := by
        obtain ⟨v, rfl⟩ | ⟨n, v, rfl⟩ := fetchCode_codeForm hf
        · rw [hrun.1, execCode, hs]; rfl
        · rw [hrun.2, execCode, hs]; rfl
      simp only [andThen_ok, hcode]
      cases writeCopies (e₀.load i) s.line with
      | none => exact ⟨s.line, s.phase, s.ports, rfl⟩
      | some b => exact ⟨b.2, .body b.1, q, rfl⟩

theorem conclude_ne_fault {α : Type} (s : State) (r : Reply α) (effect : α → State → State) (why : Fault) :
    conclude s r effect ≠ .fault why := by
  cases r <;> simp

/-- A body that is over leaves no body running. -/
theorem finishBody_cases (s : State) (e : Engine) (p : Ports) :
    (∃ t, finishBody s e p = .next t ∧ ∀ e', t.phase ≠ .body e') ∨ ∃ why, finishBody s e p = .refused why := by
  have h : Yields (finishBody s e p) fun t => ∀ e', t.phase ≠ .body e' :=
    yields_finishBody ⟨fun _ _ => by simp, fun _ => by simp⟩ (by simp) (by simp) (by simp)
  cases hf : finishBody s e p with
  | next t => exact .inl ⟨t, rfl, h t hf⟩
  | fault why =>
    unfold finishBody at hf
    split at hf <;> exact absurd hf (conclude_ne_fault _ _ _ _)
  | refused why => exact .inr ⟨why, rfl⟩

theorem bodyLoop_of_no_body {n : Nat} {t : State} (h : ∀ e, t.phase ≠ .body e) : bodyLoop n t = .next t := by
  cases n with
  | zero => rfl
  | succ n =>
    unfold bodyLoop
    split
    · next e he => exact absurd he (h e)
    · rfl

/-- The machine's codes to the end are the piece, up to what a silent port leaves of the scratch. -/
theorem bodyLoop_eq_continueBody (n : Nat) (hs : s.phase = .body e) (hy : e.y < e.lines) :
    ∃ line ph p, bodyLoop n s =
      continueBody (s.withScratch s.hdr line ph p) (bodyReply s.cfg n e s.line s.ports) := by
  induction n generalizing s e with
  | zero =>
    refine ⟨s.line, s.phase, s.ports, ?_⟩
    simp only [bodyLoop, bodyReply, continueBody, hy, if_true, ← hs]
    rfl
  | succ n ih =>
    obtain ⟨line, ph, p, hcode⟩ := codeStep_eq_continueBody runsCodes_runCode hs
    simp only [bodyLoop, hs, bodyReply, hy, if_true, hcode]
    cases codeReply s.cfg e s.line s.ports with
    | error er q => exact ⟨line, ph, p, bodyLoop_of_no_body (by simp)⟩
    | stall q => exact ⟨line, ph, p, bodyLoop_of_no_body (by simp)⟩
    | refuse why => exact ⟨line, ph, p, rfl⟩
    | ok b q =>
      obtain ⟨e', line'⟩ := b
      rw [andThen_ok]
      by_cases hy' : e'.y < e'.lines
      · simp only [continueBody, hy', if_true]
        exact ih (s := s.withScratch s.hdr line' (.body e') q) rfl hy'
      · refine ⟨line, ph, p, ?_⟩
        rw [bodyReply_of_over n line' q hy']
        simp only [continueBody, hy', if_false]
        obtain ⟨t, ht, hno⟩ | ⟨why, ht⟩ := finishBody_cases (s.withScratch s.hdr line ph p) e' q
        · rw [ht]; exact bodyLoop_of_no_body hno
        · rw [ht]

/-- A command with a body, whole. -/
theorem wholeCommand_continueBody (s : State) (r : Reply (Engine × List Byte)) :
    ∃ line ph p, wholeCommand (continueBody s r) =
      continueBody (s.withScratch s.hdr line ph p)
        (r.andThen fun b p => bodyReply s.cfg (p.input.length + 1) b.1 b.2 p) := by
  cases r with
  | error er q => exact ⟨s.line, s.phase, s.ports, bodyLoop_of_no_body (by simp)⟩
  | stall q => exact ⟨s.line, s.phase, s.ports, bodyLoop_of_no_body (by simp)⟩
  | refuse why => exact ⟨s.line, s.phase, s.ports, rfl⟩
  | ok b q =>
    obtain ⟨e, line⟩ := b
    rw [andThen_ok]
    by_cases hy : e.y < e.lines
    · simp only [continueBody, hy, if_true]
      exact bodyLoop_eq_continueBody (s := s.withScratch s.hdr line (.body e) q) _ rfl hy
    · refine ⟨s.line, s.phase, s.ports, ?_⟩
      rw [bodyReply_of_over _ line q hy]
      simp only [continueBody, hy, if_false]
      obtain ⟨t, ht, hno⟩ | ⟨why, ht⟩ := finishBody_cases s e q
      · rw [ht]; exact (bodyLoop_of_no_body hno).trans ht.symm
      · rw [ht]; exact ht.symm

/-! ### A body comes to its end (R195) -/

/-- A stopped engine emits every scanline that is left (R185). -/
theorem settle_of_stopped {n : Nat} (h : settle cfg n e line p = .ok (e', line') q) (hs : e.stopped = true) :
    e'.y = e.y + n := by
  induction n generalizing e line p with
  | zero =>
    obtain ⟨he, -⟩ := Reply.ok.inj h
    rw [← (Prod.mk.inj he).1]; rfl
  | succ n ih =>
    obtain ⟨-, hrun, -⟩ | ⟨e₁, p₁, hemit, hnext⟩ := settle_succ_ok h
    · simp [hs] at hrun
    · have heq := (emitLine_ok hemit).2.1
      have hy : e₁.nextLine.y = e.y + 1 := by rw [Engine.nextLine, heq]
      have hstop : e₁.nextLine.stopped = true := by rw [Engine.nextLine, heq]; exact hs
      obtain ⟨rfl, rfl⟩ | ⟨-, e₂, line₂, hstart, hset⟩ := hnext
      · exact hy
      · obtain ⟨-, rfl, -⟩ | ⟨hrun, -⟩ := startLine_cases hstart
        · rw [ih hset hstop]
          show e₁.nextLine.y + n = _
          omega
        · simp [hstop] at hrun

/-- What a consumer sends of the bytes of its scanlines: emitRaw all of them, the others nothing (R191, R192,
spec/45_commands.md R362). -/
def Engine.sends (e : Engine) (bytes : List Byte) : List Byte :=
  match e.consumer with
  | .raw => bytes
  | _ => []

theorem sends_of_raw (h : e.consumer = .raw) (bytes : List Byte) : e.sends bytes = bytes := by
  simp [Engine.sends, h]

theorem sends_of_not_raw (h : e.consumer ≠ .raw) (bytes : List Byte) : e.sends bytes = [] := by
  unfold Engine.sends; split <;> simp_all

/-- Emitting a scanline takes no input, and sends what the consumer sends. -/
theorem emitLine_post (e : Engine) (line : List Byte) (p : Ports) :
    (emitLine e line p).Post (fun _ q => q.input = p.input ∧ q.output = p.output ++ e.sends (line.take e.lineLen))
      (fun er q => er = .accessOut ∧ ∃ k, q.output = p.output ++ (e.sends (line.take e.lineLen)).take k) True := by
  unfold emitLine
  split
  · next hc =>
    refine post_andThen post_inRange fun row q _ ⟨_, hq⟩ => ?_
    subst hq
    exact post_andThen post_inRange fun idx q' _ ⟨_, hq'⟩ => by simp [hq', sends_of_not_raw, hc]
  · next hc =>
    refine post_andThen post_inRange fun segs q _ ⟨_, hq⟩ => ?_
    subst hq
    exact post_andThen post_inRange fun pix q' _ ⟨_, hq'⟩ => by simp [hq', sends_of_not_raw, hc]
  · next hc =>
    refine post_andThen post_inRange fun row q _ ⟨hrow, hq⟩ => ?_
    subst hq
    obtain ⟨-, -, rfl⟩ := memRead_eq_some.mp hrow
    rw [sends_of_raw hc]
    exact post_andThen (by simpa [write] using writeAll_post [line.take e.lineLen] q) fun _ q' _ hq' => hq'

/-- The engine takes no input between two fetches. -/
theorem settle_input {n : Nat} (h : settle cfg n e line p = .ok (e', line') q) : q.input = p.input := by
  induction n generalizing e line p with
  | zero => rw [(Reply.ok.inj h).2]
  | succ n ih =>
    unfold settle at h
    split at h
    · rw [(Reply.ok.inj h).2]
    · obtain ⟨e₁, p₁, hemit, h⟩ := andThen_eq_ok.mp h
      have hin := ((emitLine_post e line p).of_ok hemit).1
      dsimp only at h
      split at h
      · rw [← (Reply.ok.inj h).2, hin]
      · obtain ⟨r, p₂, hstart, h⟩ := andThen_eq_ok.mp h
        rw [ih h, ← (inRange_eq_ok.mp hstart).2, hin]

/-- One code takes a byte of the input or is the last of its body. -/
theorem codeReply_progress (h : codeReply cfg e line p = .ok (e', line') q) :
    ¬ e'.y < e'.lines ∨ q.input.length < p.input.length := by
  obtain ⟨c, p₁, hfetch, h⟩ := andThen_eq_ok.mp h
  obtain ⟨-, hcode⟩ := (fetchCode_post p).of_ok hfetch
  cases c with
  | none =>
    have hy := settle_of_stopped h rfl
    have hlines := (settle_sameBody h).lines
    simp only at hy hlines
    exact .inl (by omega)
  | some i =>
    obtain ⟨b, p₂, hwrite, hset⟩ := andThen_eq_ok.mp h
    refine .inr ?_
    rw [settle_input hset, ← (inRange_eq_ok.mp hwrite).2]
    exact decodeCode_length hcode

/-- A code that is no failure was done, and the engine went on from it. -/
theorem codeReply_ok (h : codeReply cfg e line p = .ok (e', line') q) :
    ∃ e₁ line₁ p₁, CodeDone e line e₁ line₁ ∧ settle cfg (e₁.lines - e₁.y) e₁ line₁ p₁ = .ok (e', line') q := by
  obtain ⟨c, p₁, -, h⟩ := andThen_eq_ok.mp h
  cases c with
  | none => exact ⟨_, _, _, .inl ⟨rfl, rfl⟩, h⟩
  | some i =>
    obtain ⟨b, p₂, hwrite, hset⟩ := andThen_eq_ok.mp h
    exact ⟨_, _, _, .inr ⟨_, _, (inRange_eq_ok.mp hwrite).1⟩, hset⟩

theorem codeReply_sameBody (h : codeReply cfg e line p = .ok (e', line') q) : e.SameBody e' := by
  obtain ⟨e₁, line₁, p₁, hdone, hset⟩ := codeReply_ok h
  exact (codeDone_sameBody hdone).trans (settle_sameBody hset)

/-- A code of a body leaves it at the next code or over. -/
theorem codeReply_settled (hy : e.y < e.lines) (hs : e.Settled line) (h : codeReply cfg e line p = .ok (e', line') q) :
    e'.Settled line' := by
  obtain ⟨e₁, line₁, p₁, hdone, hset⟩ := codeReply_ok h
  exact settle_settled hset rfl (codeDone_fits hdone hy (hs.atCode hy) hs.staged)

theorem answers_codeReply (h : p.NoSilence) : (codeReply cfg e line p).Answers := by
  refine answers_andThen (answers_fetchCode h) fun c q hq => ?_
  cases c with
  | none => exact answers_settle _ _ _ _ hq
  | some i => exact answers_andThen (answers_inRange hq) fun r q' hq' => answers_settle _ _ _ _ hq'

theorem answers_bodyReply (n : Nat) (h : p.NoSilence) : (bodyReply cfg n e line p).Answers := by
  induction n generalizing e line p with
  | zero => exact h
  | succ n ih =>
    unfold bodyReply
    split
    · exact answers_andThen (answers_codeReply h) fun _ _ hq => ih hq
    · exact h

/-- One more code than there are bytes is enough for a body. -/
theorem bodyReply_ends {n : Nat} (hn : p.input.length < n) (h : bodyReply cfg n e line p = .ok (e', line') q) :
    ¬ e'.y < e'.lines ∧ e.SameBody e' := by
  induction n generalizing e line p with
  | zero => omega
  | succ n ih =>
    by_cases hy : e.y < e.lines
    · simp only [bodyReply, hy, if_true] at h
      obtain ⟨⟨e₁, line₁⟩, p₁, hcode, h⟩ := andThen_eq_ok.mp h
      have hsame := codeReply_sameBody hcode
      obtain hover | hless := codeReply_progress hcode
      · rw [bodyReply_of_over n line₁ p₁ hover] at h
        obtain ⟨he, -⟩ := Reply.ok.inj h
        obtain ⟨rfl, -⟩ := Prod.mk.inj he
        exact ⟨hover, hsame⟩
      · obtain ⟨hover, hsame'⟩ := ih (by omega) h
        exact ⟨hover, hsame.trans hsame'⟩
    · rw [bodyReply_of_over _ line p hy] at h
      obtain ⟨he, -⟩ := Reply.ok.inj h
      obtain ⟨rfl, -⟩ := Prod.mk.inj he
      exact ⟨hy, .refl e⟩

theorem answers_runBody (h : p.NoSilence) : (runBody cfg e p).Answers :=
  answers_andThen (answers_enterBody cfg e h) fun _ _ hq => answers_bodyReply _ hq

/-- A body that answers is over, and is still the body that was entered. -/
theorem runBody_ends (h : runBody cfg e p = .ok (e', line) q) : ¬ e'.y < e'.lines ∧ e.SameBody e' := by
  obtain ⟨⟨e₁, line₁⟩, p₁, henter, h⟩ := andThen_eq_ok.mp h
  obtain ⟨hover, hsame⟩ := bodyReply_ends (Nat.lt_succ_self _) h
  exact ⟨hover, (enterBody_sameBody henter).trans hsame⟩

end Body

/-! ### DECODE and RLE_DECODE as pieces (spec/45_commands.md R354, R362) -/

/-- RLE_DECODE up to the end of its body. -/
def rleReply (s : State) : Reply (Engine × List Byte) :=
  (require (decide (1 ≤ s.arg0.toNat ∧ s.arg0.toNat ≤ lineBound)) .badArg s.ports).andThen fun _ p =>
    runBody s.cfg (rawEngine s) p

section Commands
variable {s : State} {info : HeaderInfo} {p q : Ports}

theorem wholeCommand_beginRleDecode (s : State) :
    ∃ line ph p, wholeCommand (beginRleDecode s) =
      continueBody (s.withScratch s.hdr line ph p) (rleReply s) := by
  obtain ⟨line, ph, p, h⟩ := wholeCommand_continueBody s
    ((require (decide (1 ≤ s.arg0.toNat ∧ s.arg0.toNat ≤ lineBound)) .badArg s.ports).andThen fun _ p =>
      enterBody s.cfg (rawEngine s) p)
  refine ⟨line, ph, p, h.trans (congrArg _ ?_)⟩
  unfold rleReply
  cases require (decide (1 ≤ s.arg0.toNat ∧ s.arg0.toNat ≤ lineBound)) .badArg s.ports <;> rfl

theorem rleReply_ends {e : Engine} {line : List Byte} (h : rleReply s = .ok (e, line) q) :
    ¬ e.y < e.lines ∧ e.consumer = .raw := by
  obtain ⟨_, p, -, h⟩ := andThen_eq_ok.mp h
  obtain ⟨hover, hsame⟩ := runBody_ends h
  exact ⟨hover, hsame.consumer⟩

theorem answers_rleReply (h : s.ports.NoSilence) : (rleReply s).Answers :=
  answers_andThen (answers_require h) fun _ _ hq => answers_runBody hq

/-- DECODE with a header and a body: the header is latched, and the body runs to its end. -/
theorem wholeCommand_beginDecode_body (hhdr : headerRead s.cfg s.ports = .ok info p)
    (hskip : skip 60 p = .ok false q) :
    ∃ line ph p', wholeCommand (beginDecode s) =
      continueBody (s.withScratch info.hdr line ph p') (runBody s.cfg (decodeEngine s.freeIx info) q) := by
  have hbegin : beginDecode s =
      continueBody { s with hdr := info.hdr } (enterBody s.cfg (decodeEngine s.freeIx info) q) := by
    simp only [beginDecode, hhdr, decodeTail, hskip]
  rw [hbegin]
  exact wholeCommand_continueBody { s with hdr := info.hdr } (enterBody s.cfg (decodeEngine s.freeIx info) q)

end Commands

/-! ### What a command depends on (R85, R90) -/

section Scratch
variable {s : State} (hdr : Header) (line : List Byte) (ph : Phase)

theorem beginRleDecode_withScratch (h : s.ports.NoSilence) :
    wholeCommand (beginRleDecode (s.withScratch hdr line ph s.ports)) = wholeCommand (beginRleDecode s) := by
  obtain ⟨line₁, ph₁, p₁, h₁⟩ := wholeCommand_beginRleDecode (s.withScratch hdr line ph s.ports)
  obtain ⟨line₂, ph₂, p₂, h₂⟩ := wholeCommand_beginRleDecode s
  have hsame : ∀ hdr line ph p,
      continueBody (s.withScratch hdr line ph p) (rleReply s) = continueBody s (rleReply s) := fun hdr line ph p =>
    continueBody_withScratch s hdr line ph p (answers_rleReply h) (.inr fun _ _ _ => rleReply_ends)
  rw [h₁, h₂, hsame]
  exact hsame hdr line₁ ph₁ p₁

theorem decodeTail_withScratch {p : Ports} (h : p.NoSilence) (info : HeaderInfo) (q : Ports) :
    decodeTail info (s.withScratch s.hdr line ph q) p = decodeTail info s p := by
  have hskip := answers_skip h 60
  unfold decodeTail
  cases hs : skip 60 p with
  | error er p => rfl
  | stall p => simp [hs, Reply.Answers] at hskip
  | refuse why => rfl
  | ok ended p =>
    rw [hs] at hskip
    cases ended with
    | true => exact conclude_withScratch s s.hdr line ph q hskip fun _ _ => by simp
    | false => exact continueBody_withScratch s s.hdr line ph q (answers_enterBody _ _ hskip) (.inl rfl)

/-- DECODE latches its own header before it reads HDR (R90). -/
theorem beginDecode_withScratch (h : s.ports.NoSilence) :
    beginDecode (s.withScratch hdr line ph s.ports) = beginDecode s := by
  have hread := answers_headerRead (cfg := s.cfg) h
  unfold beginDecode
  rw [show headerRead (s.withScratch hdr line ph s.ports).cfg (s.withScratch hdr line ph s.ports).ports =
    headerRead s.cfg s.ports from rfl]
  cases hr : headerRead s.cfg s.ports with
  | error er p => rfl
  | stall p => simp [hr, Reply.Answers] at hread
  | refuse why => rfl
  | ok info p =>
    rw [hr] at hread
    exact decodeTail_withScratch (s := { s with hdr := info.hdr }) line ph hread info s.ports

end Scratch

/-- A command that writes the committed Image out reads no scratch. -/
theorem emitImage_withScratch {s : State} {check : Image → Ports → Reply Unit} {parts : Image → List (List Byte)}
    (hcheck : (check s.image s.ports).Answers) (hdr : Header) (line : List Byte) (ph : Phase) :
    emitImage (s.withScratch hdr line ph s.ports) check parts = emitImage s check parts :=
  conclude_withScratch s hdr line ph s.ports (answers_andThen hcheck fun _ _ h => answers_writeAll _ h) fun _ _ => rfl

/-- The body of a command, after the prologue, depends on no scratch but the ports. -/
def IgnoresScratch (body : State → Outcome State Fault Refusal) : Prop :=
  ∀ (s : State) (hdr : Header) (line : List Byte) (ph : Phase), s.ports.NoSilence →
    body (s.withScratch hdr line ph s.ports) = body s

/-- No command reads scratch before it has written it, and its end overwrites all of it. -/
theorem exec_ignoresScratch {i : Instr} (hcode : ¬ isCodeForm i) :
    ∃ body, (∀ s, exec i s = runCommand s body) ∧ IgnoresScratch body := by
  unfold exec
  cases i with
  | lit v => simp [codeBytes, encode] at hcode
  | run n v => simp [codeBytes, encode] at hcode
  | decode =>
    refine ⟨_, fun _ => rfl, fun s hdr line ph h => ?_⟩
    exact congrArg wholeCommand (beginDecode_withScratch hdr line ph h)
  | rleDecode =>
    refine ⟨_, fun _ => rfl, fun s hdr line ph h => ?_⟩
    exact beginRleDecode_withScratch hdr line ph h
  | nop | clear =>
    refine ⟨_, fun _ => rfl, fun s hdr line ph h => ?_⟩
    exact conclude_withScratch s hdr line ph _ h fun _ _ => rfl
  | probe =>
    refine ⟨_, fun _ => rfl, fun s hdr line ph h => ?_⟩
    exact conclude_withScratch s hdr line ph _ (answers_headerRead h) fun _ _ => rfl
  | loadIndexed =>
    refine ⟨_, fun _ => rfl, fun s hdr line ph h => ?_⟩
    refine conclude_withScratch s hdr line ph _ ?_ fun _ _ => endCommand_commit_withScratch ..
    exact answers_andThen (answers_checkLoad h) fun _ _ h => answers_andThen (answers_readData _ h) fun _ _ h =>
      answers_andThen (answers_readData _ h) fun _ _ h => answers_andThen (answers_require h) fun _ _ h => h
  | loadTruecolor =>
    refine ⟨_, fun _ => rfl, fun s hdr line ph h => ?_⟩
    refine conclude_withScratch s hdr line ph _ ?_ fun _ _ => endCommand_commit_withScratch ..
    exact answers_andThen (answers_checkLoad h) fun _ _ h => answers_andThen (answers_readData _ h) fun _ _ h =>
      answers_andThen (answers_require h) fun _ _ h => h
  | rleEncode =>
    refine ⟨_, fun _ => rfl, fun s hdr line ph h => ?_⟩
    refine conclude_withScratch s hdr line ph _ ?_ fun _ _ => rfl
    exact answers_andThen (answers_require h) fun _ _ h => answers_andThen (answers_readData _ h) fun _ _ h =>
      answers_writeAll _ h
  | readIndex | readPalette =>
    refine ⟨_, fun _ => rfl, fun s hdr line ph h => ?_⟩
    exact emitImage_withScratch (answers_requireIndexed h) hdr line ph
  | readPixels | writePcx | writeBmp | writeBmpa =>
    refine ⟨_, fun _ => rfl, fun s hdr line ph h => ?_⟩
    exact emitImage_withScratch (answers_requireImage h) hdr line ph
  | writeIco =>
    refine ⟨_, fun _ => rfl, fun s hdr line ph h => ?_⟩
    exact emitImage_withScratch (answers_requireIcon h) hdr line ph

end Sys2Proof.Machine

namespace Sys2Proof.Proofs

open Sys2Proof Sys2Proof.Machine Host

/-- Settles O50: after the prologue only HDR and LINE differ, and no command's body depends on them. -/
theorem commandsIgnoreScratch : Obligations.CommandsIgnoreScratch := by
  unfold Obligations.CommandsIgnoreScratch
  intro s i st cursor out line hdr hcode hs hsilence
  obtain ⟨body, hexec, hbody⟩ := exec_ignoresScratch hcode
  have hready : s.Ready := by simp [State.Ready, hs, Phase.ready]
  rw [hexec, hexec s, runCommand_of_ready hready]
  exact (runCommand_of_ready (by exact hready) body).trans (hbody (prologue s) hdr line s.phase hsilence)

end Sys2Proof.Proofs
end

section
/-! PROOFS. The engine follows R184's loops as Reference.lean writes them out, whatever the ports answer: what a
raw body has put in the port is finished scanlines (spec/45_commands.md R362, spec/60_exceptions.md R411). -/

namespace Sys2Proof.Machine

open Host

/-! ### R184's inner loop to the end of its scanline -/

/-- The passes that a scanline can still take (R195). -/
def RefBody.fuel (lineLen : Nat) (r : RefBody) : Nat :=
  lineLen - r.x + r.input.length + (if r.stopped then 0 else 1)

/-- The `while` loop of R184 to its end. -/
def finishLine (lineLen : Nat) (r : RefBody) : RefBody := refLine lineLen (r.fuel lineLen) r

section Reference
variable {lineLen : Nat} {r r' : RefBody}

theorem refLine_of_over {n : Nat} (h : ¬ (r.x < lineLen ∧ r.stopped = false)) : refLine lineLen n r = r := by
  cases n with
  | zero => rfl
  | succ n => simp only [refLine, if_neg h]

/-- Each pass writes a position, takes a byte or stops. -/
theorem fuel_pass (hx : r.x < lineLen) (hs : r.stopped = false) : r.pass.fuel lineLen < r.fuel lineLen := by
  obtain ⟨line, x, rem, val, stopped, input⟩ := r
  simp only at hx hs
  subst hs
  by_cases hrem : rem = 0
  · rcases input with _ | ⟨b, rest⟩
    · simp [RefBody.pass, RefBody.fuel, hrem]
    · cases hb : isMarker b with
      | false => simp [RefBody.pass, RefBody.fuel, RefBody.store, hrem, hb]; omega
      | true => rcases rest with _ | ⟨d, rest⟩ <;> simp [RefBody.pass, RefBody.fuel, hrem, hb]
  · simp [RefBody.pass, RefBody.fuel, RefBody.store, hrem]; omega

/-- More passes than a scanline can take change nothing. -/
theorem refLine_eq_of_fuel {n m : Nat} (hn : r.fuel lineLen ≤ n) (hm : r.fuel lineLen ≤ m) :
    refLine lineLen n r = refLine lineLen m r := by
  induction n generalizing m r with
  | zero =>
    have hs : r.stopped = true := by
      by_contra hs
      simp [RefBody.fuel, hs] at hn
    exact (refLine_of_over (n := m) (r := r) (by simp [hs])).symm
  | succ n ih =>
    by_cases hrun : r.x < lineLen ∧ r.stopped = false
    · have hless := fuel_pass hrun.1 hrun.2
      obtain ⟨m, rfl⟩ : ∃ m', m = m' + 1 := ⟨m - 1, by omega⟩
      simp only [refLine, if_pos hrun]
      exact ih (by omega) (by omega)
    · rw [refLine_of_over hrun, refLine_of_over hrun]

theorem finishLine_of_over (h : ¬ (r.x < lineLen ∧ r.stopped = false)) : finishLine lineLen r = r :=
  refLine_of_over h

theorem finishLine_pass (hx : r.x < lineLen) (hs : r.stopped = false) :
    finishLine lineLen r = finishLine lineLen r.pass := by
  have hless := fuel_pass hx hs
  obtain ⟨n, hn⟩ : ∃ n, r.fuel lineLen = n + 1 := ⟨r.fuel lineLen - 1, by omega⟩
  calc finishLine lineLen r
      = refLine lineLen (n + 1) r := by rw [finishLine, hn]
    _ = refLine lineLen n r.pass := by simp [refLine, hx, hs]
    _ = finishLine lineLen r.pass := refLine_eq_of_fuel (by omega) le_rfl

/-- A scanline's start in R184's `for` loop. -/
def RefBody.fresh (policy : LineRunPolicy) (lineLen : Nat) (fill : Byte) (r : RefBody) : RefBody :=
  { r with line := List.replicate lineLen fill, x := 0
           rem := match policy with | .clip => 0 | .carry => r.rem }

/-- The scanlines from the present one on, with `n` after it, and the variables at the end. -/
def refRest (policy : LineRunPolicy) (lineLen : Nat) (fill : Byte) (n : Nat) (r : RefBody) :
    List (List Byte) × RefBody :=
  let r' := finishLine lineLen r
  (r'.line :: (refLines policy lineLen fill n r').1, (refLines policy lineLen fill n r').2)

theorem refLines_succ (policy : LineRunPolicy) (fill : Byte) (n : Nat) (r : RefBody) :
    refLines policy lineLen fill (n + 1) r = refRest policy lineLen fill n (r.fresh policy lineLen fill) := by
  have hfuel : refLine lineLen (lineLen + (r.fresh policy lineLen fill).input.length + 1)
      (r.fresh policy lineLen fill) = finishLine lineLen (r.fresh policy lineLen fill) :=
    refLine_eq_of_fuel (by cases hs : r.stopped <;> simp [RefBody.fuel, RefBody.fresh, hs]) le_rfl
  unfold refRest
  rw [← hfuel]
  rfl

theorem refRest_congr {policy : LineRunPolicy} {fill : Byte} (n : Nat)
    (h : finishLine lineLen r = finishLine lineLen r') :
    refRest policy lineLen fill n r = refRest policy lineLen fill n r' := by
  simp only [refRest, h]

/-- A list around an element that was set. -/
theorem take_drop_set {α : Type} {l : List α} {i k : Nat} {a : α} (h : i < l.length) :
    (l.set i a).take (i + 1) = l.take i ++ [a] ∧ (l.set i a).drop (i + 1 + k) = l.drop (i + (k + 1)) := by
  refine ⟨?_, ?_⟩
  · rw [List.take_add_one, List.take_set_of_le le_rfl, List.getElem?_set_self h]; rfl
  · rw [List.drop_set_of_lt (by omega)]; congr 1; omega

/-- A pending run is written position by position. -/
theorem finishLine_copies {k : Nat} (hs : r.stopped = false) (hk : k ≤ r.rem) (hx : r.x + k ≤ lineLen)
    (hl : r.line.length = lineLen) :
    finishLine lineLen r = finishLine lineLen
      { r with line := r.line.take r.x ++ List.replicate k r.val ++ r.line.drop (r.x + k)
               x := r.x + k, rem := r.rem - k } := by
  induction k generalizing r with
  | zero => simp
  | succ k ih =>
    have hstore : r.pass = r.store := by simp [RefBody.pass, show r.rem ≠ 0 by omega]
    have hline := take_drop_set (l := r.line) (i := r.x) (k := k) (a := r.val) (by omega)
    rw [finishLine_pass (by omega) hs, hstore,
      ih (r := r.store) hs (by simp only [RefBody.store]; omega) (by simp only [RefBody.store]; omega)
        (by simp [RefBody.store, hl])]
    simp only [RefBody.store, hline, List.replicate_succ, List.append_assoc, List.singleton_append]
    congr 2 <;> omega

end Reference

/-! ### The engine against the loops -/

/-- The variables of R184's loops that an engine stands for. -/
def Engine.ref (e : Engine) (line input : List Byte) : RefBody :=
  { line := line, x := e.x, rem := e.rem, val := e.val, stopped := e.stopped, input := input }

section Engine
variable {cfg : Config} {e e' : Engine} {line line' input left : List Byte} {p q : Ports}

/-- The engine's writes are as many passes of the loop. -/
theorem writeCopies_ref (h : writeCopies e line = some (e', line')) (hs : e.stopped = false) (hx : e.x ≤ e.lineLen)
    (hl : line.length = e.lineLen) (input : List Byte) :
    finishLine e.lineLen (e.ref line input) = finishLine e.lineLen (e'.ref line' input) := by
  obtain ⟨out, ho, he⟩ := Option.map_eq_some_iff.mp h
  obtain ⟨rfl, rfl⟩ := Prod.mk.inj he
  obtain ⟨-, -, rfl⟩ := memWrite_eq_some.mp ho
  rw [finishLine_copies (k := min e.rem (e.lineLen - e.x)) hs (Nat.min_le_left _ _)
    (show e.x + _ ≤ _ by omega) hl]
  simp [Engine.ref]

/-- The count of a RUN is its first byte modulo 64 (R181). -/
theorem and_63_eq_mod (n : Nat) : n &&& 63 = n % 64 := Nat.and_two_pow_sub_one_eq_mod n 6

/-- A code fetched where no run is pending is one pass, and a LIT's copy one more. -/
theorem load_ref {i : Instr} (hcode : decodeCode input = .ok (i, left)) (hx : e.x < e.lineLen) (hrem : e.rem = 0)
    (hs : e.stopped = false) (line : List Byte) :
    finishLine e.lineLen (e.ref line input) = finishLine e.lineLen ((e.load i).ref line left) := by
  rw [finishLine_pass hx hs]
  unfold decodeCode at hcode
  split at hcode
  · simp at hcode
  next b rest =>
  cases hb : isMarker b with
  | false =>
    simp only [hb] at hcode
    simp at hcode
    obtain ⟨rfl, rfl⟩ := hcode
    rw [finishLine_pass (r := Engine.ref (e.load (.lit b)) line rest) hx hs]
    simp [RefBody.pass, Engine.ref, Engine.load, hrem, hb]
  | true =>
    rcases rest with _ | ⟨v, rest⟩
    · simp [hb] at hcode
    · simp [hb] at hcode
      obtain ⟨rfl, rfl⟩ := hcode
      simp [RefBody.pass, Engine.ref, Engine.load, hrem, hb, and_63_eq_mod]

/-- A fetch that finds no code stops the loop (R185, R186). -/
theorem stop_ref {why : Reject} (hcode : decodeCode input = .error why) (hx : e.x < e.lineLen) (hrem : e.rem = 0)
    (hs : e.stopped = false) (line : List Byte) :
    finishLine e.lineLen (e.ref line input) = finishLine e.lineLen (Engine.ref { e with stopped := true } line []) := by
  rw [finishLine_pass hx hs]
  unfold decodeCode at hcode
  split at hcode
  · simp [RefBody.pass, Engine.ref, hrem]
  next b rest =>
  cases hb : isMarker b with
  | false => simp [hb] at hcode
  | true =>
    rcases rest with _ | ⟨v, rest⟩
    · simp [RefBody.pass, Engine.ref, hrem, hb]
    · simp [hb] at hcode

/-- The engine's scanline start is R184's, with what is left of a run written at once (R188). -/
theorem startLine_ref (h : startLine cfg e = some (e', line')) (line input : List Byte) :
    finishLine e.lineLen ((e.ref line input).fresh cfg.lineRunPolicy e.lineLen e.fill) =
      finishLine e.lineLen (e'.ref line' input) := by
  have hfresh : (e.ref line input).fresh cfg.lineRunPolicy e.lineLen e.fill =
      (freshEngine cfg e).ref (List.replicate e.lineLen e.fill) input := rfl
  rw [hfresh]
  obtain ⟨-, rfl, rfl⟩ | ⟨hs, hw⟩ := startLine_cases h
  · rfl
  · exact writeCopies_ref hw hs (Nat.zero_le _) List.length_replicate input

/-! ### What a raw body has sent -/

/-- The scanlines sent are those before the present one, and the engine stands where R184's loops are in `all`
the scanlines of the body. -/
structure Engine.Follows (cfg : Config) (all : List (List Byte)) (e : Engine) (line : List Byte) (p : Ports) :
    Prop where
  raw : e.consumer = .raw
  output : p.output = (all.take e.y).flatten
  rest : e.y < e.lines → all.drop e.y =
    (refRest cfg.lineRunPolicy e.lineLen e.fill (e.lines - e.y - 1) (e.ref line p.input)).1

/-- Finished scanlines before a failing read; before a failing write also a first part of the next (R411). -/
def SentLines (all : List (List Byte)) (lines : Nat) (er : CmdError) (p : Ports) : Prop :=
  (er = .accessIn → ∃ n, n < lines ∧ p.output = (all.take n).flatten) ∧
  (er = .accessOut → ∃ n k, n < lines ∧ p.output = (all.take n).flatten ++ (all.getD n []).take k)

variable {all : List (List Byte)}

theorem follows_startLine (hraw : e.consumer = .raw) (hout : p.output = (all.take e.y).flatten)
    (hrest : e.y < e.lines → all.drop e.y =
      (refLines cfg.lineRunPolicy e.lineLen e.fill (e.lines - e.y) (e.ref line p.input)).1)
    (h : startLine cfg e = some (e', line')) : e'.Follows cfg all line' p := by
  have hsame := startLine_sameBody h
  have hy := startLine_y h
  refine ⟨hsame.consumer.trans hraw, hy ▸ hout, fun hlt => ?_⟩
  rw [hy, hsame.lines] at hlt ⊢
  rw [hrest hlt, hsame.lineLen, hsame.fill, show e.lines - e.y = e.lines - e.y - 1 + 1 by omega, refLines_succ,
    refRest_congr _ (startLine_ref h line p.input)]
  rfl

/-- A scanline that is full or cut by a stop is the next of `all`, and the rest of `all` comes after it. -/
theorem follows_scanline (h : e.Follows cfg all line p) (hy : e.y < e.lines)
    (hover : ¬ (e.x < e.lineLen ∧ e.stopped = false)) :
    all[e.y]? = some line ∧ all.take (e.y + 1) = all.take e.y ++ [line] ∧
      all.drop (e.y + 1) =
        (refLines cfg.lineRunPolicy e.lineLen e.fill (e.lines - (e.y + 1)) (e.ref line p.input)).1 := by
  have hdrop := h.rest hy
  rw [refRest, finishLine_of_over (r := e.ref line p.input) hover] at hdrop
  have hget : all[e.y]? = some line := by rw [← List.head?_drop, hdrop]; rfl
  refine ⟨hget, by rw [List.take_add_one, hget]; rfl, ?_⟩
  rw [show all.drop (e.y + 1) = (all.drop e.y).tail by rw [List.tail_drop], hdrop]
  rfl

/-- The engine goes on to a code or to its end along R184's loops, or an output request fails. -/
theorem settle_follows {n : Nat} (hn : n = e.lines - e.y) (hfits : e.Fits line) (h : e.Follows cfg all line p) :
    (settle cfg n e line p).Post (fun b q => b.1.Follows cfg all b.2 q) (SentLines all e.lines) True := by
  induction n generalizing e line p with
  | zero => exact h
  | succ n ih =>
    unfold settle
    split
    · exact h
    next hover =>
    have hy := hfits.y_lt
    obtain ⟨hget, htake, hdrop⟩ := follows_scanline h hy hover
    have hsends : e.sends (line.take e.lineLen) = line := by
      rw [sends_of_raw h.raw, ← hfits.line_length, List.take_length]
    refine post_andThen (Q := fun _ q => q.input = p.input ∧ q.output = (all.take (e.y + 1)).flatten)
      ((emitLine_post e line p).mono (fun _ q _ hq => ?_) fun er q hq => ?_) fun e₁ q hemit ⟨hin, hout⟩ => ?_
    · exact ⟨hq.1, by rw [hq.2, hsends, h.output, htake, List.flatten_append, List.flatten_singleton]⟩
    · obtain ⟨rfl, k, hk⟩ := hq
      exact ⟨nofun, fun _ => ⟨e.y, k, hy, by rw [hk, hsends, h.output, List.getD_eq_getElem?_getD, hget]; rfl⟩⟩
    · obtain ⟨hsame, heq, hstaged⟩ := emitLine_ok hemit
      have hnext : e₁.nextLine.y = e.y + 1 ∧ e₁.nextLine.ref line q.input = e.ref line p.input := by
        rw [heq, hin]; exact ⟨rfl, rfl⟩
      obtain ⟨hy₁, href⟩ := hnext
      have hlines₁ : e₁.nextLine.lines = e.lines := hsame.lines
      have hraw : e₁.nextLine.consumer = .raw := hsame.consumer.trans h.raw
      by_cases hn0 : n = 0
      · simp only [hn0, if_true]
        exact ⟨hraw, hy₁ ▸ hout, fun hlt => absurd hlt (show ¬ e₁.nextLine.y < e₁.nextLine.lines by omega)⟩
      · simp only [hn0, if_false]
        refine post_andThen post_inRange fun b q' _ ⟨hstart, hq'⟩ => ?_
        have hstart : startLine cfg e₁.nextLine = some (b.1, b.2) := hstart
        have hfollows : b.1.Follows cfg all b.2 q := by
          refine follows_startLine (line := line) hraw (hy₁ ▸ hout) (fun _ => ?_) hstart
          rw [href, hy₁, hlines₁, hdrop, show e₁.nextLine.lineLen = e.lineLen from hsame.lineLen,
            show e₁.nextLine.fill = e.fill from hsame.fill]
        have hlines₂ : b.1.lines = e.lines := (startLine_sameBody hstart).lines.trans hlines₁
        have hy₂ : b.1.y = e.y + 1 := (startLine_y hstart).trans hy₁
        have hst₁ : e₁.nextLine.Staged := by
          have := hstaged hfits.staged
          rwa [show e.y = e₁.y by rw [heq]] at this
        rw [hq', ← hlines₂]
        exact ih (by omega) (startLine_fits hstart (by omega) hst₁) hfollows

/-- A failing read leaves the scanlines before the present one. -/
theorem sentLines_of_read (h : e.Follows cfg all line p) (hy : e.y < e.lines) (hq : q.output = p.output) :
    SentLines all e.lines .accessIn q :=
  ⟨fun _ => ⟨e.y, hy, hq.trans h.output⟩, nofun⟩

theorem codeReply_follows (hy : e.y < e.lines) (hset : e.Settled line) (h : e.Follows cfg all line p) :
    (codeReply cfg e line p).Post (fun b q => b.1.Follows cfg all b.2 q) (SentLines all e.lines) True := by
  obtain ⟨hx, hrem, hstop, hl⟩ := hset.atCode hy
  refine post_andThen ((fetchCode_post p).mono (fun _ _ _ h => h) fun er q ⟨her, hq⟩ =>
    her ▸ sentLines_of_read h hy hq) fun c q _ ⟨hout, hcode⟩ => ?_
  cases c with
  | none =>
    obtain ⟨hin, why, hcode⟩ := hcode
    refine settle_follows (e := { e with stopped := true }) rfl
      (codeDone_fits (.inl ⟨rfl, rfl⟩) hy (hset.atCode hy) hset.staged) ⟨h.raw, hout ▸ h.output, fun hlt => ?_⟩
    rw [h.rest hlt, refRest_congr _ (stop_ref hcode hx hrem hstop line), hin]
  | some i =>
    refine post_andThen post_inRange fun b q' _ ⟨hwrite, hq'⟩ => ?_
    have hwrite : writeCopies (e.load i) line = some (b.1, b.2) := hwrite
    have hdone : CodeDone e line b.1 b.2 := .inr ⟨_, _, hwrite⟩
    have hsame := codeDone_sameBody hdone
    have hyb : b.1.y = e.y := (writeCopies_y hwrite).trans (b := (e.load i).y) rfl
    rw [hq', ← hsame.lines]
    refine settle_follows rfl (codeDone_fits hdone hy (hset.atCode hy) hset.staged)
      ⟨hsame.consumer.trans h.raw, by rw [hout, hyb]; exact h.output, fun _ => ?_⟩
    have href := (load_ref hcode hx hrem hstop line).trans (writeCopies_ref hwrite hstop hx.le hl q.input)
    rw [hyb, hsame.lineLen, hsame.fill, hsame.lines, ← refRest_congr _ href]
    exact h.rest hy

theorem bodyReply_follows (n : Nat) (hset : e.Settled line) (h : e.Follows cfg all line p) :
    (bodyReply cfg n e line p).Post (fun b q => b.1.Follows cfg all b.2 q) (SentLines all e.lines) True := by
  induction n generalizing e line p with
  | zero => exact h
  | succ n ih =>
    unfold bodyReply
    split
    · next hy =>
      refine post_andThen (codeReply_follows hy hset h) fun b q hcode hb => ?_
      rw [← (codeReply_sameBody hcode).lines]
      exact ih (codeReply_settled hy hset hcode) hb
    · exact h

/-- What a raw body has sent, wherever a port fails (R411). -/
theorem runBody_sentLines (hraw : e.consumer = .raw) (hy : e.y = 0) (hstaged : e.Staged) (hout : p.output = [])
    (hall : all = (refLines cfg.lineRunPolicy e.lineLen e.fill e.lines (e.ref [] p.input)).1) :
    (runBody cfg e p).Post (fun b q => b.1.Follows cfg all b.2 q) (SentLines all e.lines) True := by
  have henter : (enterBody cfg e p).Post (fun b q => b.1.Follows cfg all b.2 q) (SentLines all e.lines) True := by
    unfold enterBody
    split
    · next h0 => exact ⟨hraw, by rw [hout, hy]; rfl, fun hlt => by simp only at hlt; omega⟩
    · refine post_andThen post_inRange fun b q _ ⟨hstart, hq⟩ => ?_
      have hstart : startLine cfg e = some (b.1, b.2) := hstart
      have hyb := startLine_y hstart
      have hlines := (startLine_sameBody hstart).lines
      rw [hq, ← hlines]
      refine settle_follows (by omega) (startLine_fits hstart (by omega) hstaged)
        (follows_startLine (line := []) hraw (by rw [hout, hy]; rfl) (fun _ => ?_) hstart)
      rw [hy, hall]
      rfl
  refine post_andThen henter fun b q hb hfollows => ?_
  rw [← (enterBody_sameBody hb).lines]
  exact bodyReply_follows _ (enterBody_settled hb hy hstaged) hfollows

end Engine

end Sys2Proof.Machine
end

section
/-! PROOFS. A body of literals request by request: the answers of the port are given one by one, up to one that
fails (spec/20_memory.md R76, R77, R82). -/

namespace Sys2Proof.Machine

open Host

/-! ### One request -/

section Requests
variable {p : Ports} {ds : List PortDraw}

theorem readByte_of_served {b : Byte} {rest : List Byte} (hd : p.draws = .ok :: ds) (hin : p.input = b :: rest) :
    readByte p = .ok (some b) ⟨rest, p.cursor + 1, p.output, ds⟩ := by
  simp [readByte, answer, hd, hin]

theorem readByte_of_failed {m : Nat} (hd : p.draws = .fail m :: ds) :
    readByte p = .error .accessIn (advance (min m 1) { p with draws := ds }) := by
  simp [readByte, answer, hd, inFailed]

theorem readExact_of_served {n : Nat} (hd : p.draws = .ok :: ds) (hn : n ≤ p.input.length) :
    readExact n p = .ok (some (p.input.take n)) (advance n { p with draws := ds }) := by
  simp [readExact, answer, hd, Nat.not_lt.mpr hn]

theorem skip_of_served {n : Nat} (hd : p.draws = .ok :: ds) (hn : n ≤ p.input.length) :
    skip n p = .ok false (advance n { p with draws := ds }) := by
  simp [skip, answer, hd, Nat.not_lt.mpr hn]

theorem fetchCode_of_served {b : Byte} {rest : List Byte} (hd : p.draws = .ok :: ds) (hin : p.input = b :: rest)
    (hb : isMarker b = false) : fetchCode p = .ok (some (.lit b)) ⟨rest, p.cursor + 1, p.output, ds⟩ := by
  simp [fetchCode, readByte_of_served hd hin, hb, decode_code_of_not_marker hb]

theorem fetchCode_of_failed {m : Nat} (hd : p.draws = .fail m :: ds) :
    fetchCode p = .error .accessIn (advance (min m 1) { p with draws := ds }) := by
  simp [fetchCode, readByte_of_failed hd]

/-- A table of bytes whose request `j` fails (spec/42_palette_pixels.md R223). -/
theorem readBytesOr_of_failed {n j m : Nat} (hj : j < n) (hn : j ≤ p.input.length)
    (hd : p.draws = List.replicate j .ok ++ .fail m :: ds) :
    readBytesOr n p = .error .accessIn (advance (j + min m 1) { p with draws := ds }) := by
  induction n generalizing j p with
  | zero => omega
  | succ n ih =>
    cases j with
    | zero => simp [readBytesOr, readByte_of_failed (by simpa using hd)]
    | succ j =>
      obtain ⟨b, rest, hin⟩ := List.exists_cons_of_length_pos (show 0 < p.input.length by omega)
      have hlen : j ≤ rest.length := by simpa [hin] using hn
      rw [readBytesOr, readByte_of_served (by simpa [List.replicate_succ] using hd) hin, andThen_ok,
        ih (p := ⟨rest, _, _, _⟩) (by omega) hlen rfl, andThen_error]
      simp [advance, hin, show j + 1 + min m 1 = j + min m 1 + 1 by omega]
      omega

end Requests

/-! ### A scanline of literals -/

/-- The output requests that a scanline takes (spec/45_commands.md R362). -/
def Engine.writes (e : Engine) : Nat :=
  match e.consumer with
  | .raw => 1
  | _ => 0

section Literals
variable {cfg : Config} {s : State} {e : Engine} {line : List Byte} {p : Ports} {ds : List PortDraw}

theorem writes_of_not_raw (h : e.consumer ≠ .raw) : e.writes = 0 := by
  unfold Engine.writes; split <;> simp_all

theorem sends_append (e : Engine) (b c : List Byte) : e.sends (b ++ c) = e.sends b ++ e.sends c := by
  unfold Engine.sends; split <;> simp

/-- A scanline of a body that suits its command is inside the staged buffers (R190 to R192), so it is emitted
when its output request is served. -/
theorem emitLine_of_served (hsuits : e.Suits s) (hstaged : e.Staged) (hy : e.y < e.lines)
    (hl : line.length = e.lineLen) (hd : p.draws = List.replicate e.writes .ok ++ ds) :
    ∃ e', emitLine e line p = .ok e' ⟨p.input, p.cursor, p.output ++ e.sends line, ds⟩ := by
  obtain ⟨hbound, -, hbuild, hindexed, hplanar⟩ := hsuits
  have hrow : e.consumer ≠ .raw → e.y * e.staged.w + e.staged.w ≤ e.staged.area := fun hc => by
    obtain ⟨-, hlines, -⟩ := hbuild hc
    calc e.y * e.staged.w + e.staged.w = (e.y + 1) * e.staged.w := by rw [Nat.succ_mul]
      _ ≤ e.staged.h * e.staged.w := Nat.mul_le_mul_right _ (by omega)
      _ = e.staged.area := Nat.mul_comm _ _
  cases hc : e.consumer with
  | raw =>
    have hread : memRead lineBound line 0 e.lineLen = some line :=
      memRead_eq_some.mpr ⟨by omega, by omega, by simp [← hl]⟩
    have hd : p.draws = .ok :: ds := by simpa [Engine.writes, hc] using hd
    exact ⟨e, by simp [emitLine, hc, hread, Engine.sends, write, writeAll, sendParts, hd]⟩
  | indexed =>
    have hd : p.draws = ds := by simpa [Engine.writes, hc] using hd
    obtain ⟨⟨-, -, hw, -⟩, -⟩ := hbuild (by simp [hc])
    obtain ⟨hlen, -⟩ := hindexed hc
    have hread : memRead lineBound line 0 e.staged.w = some (line.take e.staged.w) :=
      memRead_eq_some.mpr ⟨by omega, by omega, by simp⟩
    have hfits := hrow (by simp [hc])
    obtain ⟨idx, hwrite⟩ : ∃ idx, memWrite e.staged.area e.staged.idx (e.y * e.staged.w) (line.take e.staged.w) =
        some idx := ⟨_, memWrite_eq_some.mpr ⟨by rw [memRead_length hread]; exact hfits, (hstaged.1 hc).ge, rfl⟩⟩
    exact ⟨_, by simp [emitLine, hc, hread, hwrite, Engine.sends, ← hd]; rfl⟩
  | planar =>
    have hd : p.draws = ds := by simpa [Engine.writes, hc] using hd
    obtain ⟨⟨-, -, hw, -⟩, -⟩ := hbuild (by simp [hc])
    obtain ⟨hlen, -⟩ := hplanar hc
    obtain ⟨segs, hread⟩ : ∃ segs, memRead lineBound line 0 (2 * e.staged.bplNat + e.staged.w) = some segs :=
      ⟨_, memRead_eq_some.mpr ⟨by omega, by omega, rfl⟩⟩
    have hfits := hrow (by simp [hc])
    obtain ⟨pix, hwrite⟩ : ∃ pix, memWrite e.staged.area e.staged.pix (e.y * e.staged.w)
        (planarRow e.staged.w e.staged.bplNat segs) = some pix :=
      ⟨_, memWrite_eq_some.mpr ⟨by simpa [planarRow] using hfits, (hstaged.2 hc).ge, rfl⟩⟩
    exact ⟨_, by simp [emitLine, hc, hread, hwrite, Engine.sends, ← hd]; rfl⟩

theorem writeCopies_of_no_run (hrem : e.rem = 0) (hb : e.x ≤ lineBound) (hx : e.x ≤ line.length) :
    writeCopies e line = some (e, line) := by
  rw [writeCopies_of_fits (by omega) hx]
  obtain ⟨lineLen, lines, fill, consumer, staged, y, x, rem, val, stopped⟩ := e
  obtain rfl : rem = 0 := hrem
  simp

/-- With no run pending a scanline begins as FILL. -/
theorem startLine_of_no_run (cfg : Config) (hrem : e.rem = 0) :
    startLine cfg e = some (freshEngine cfg e, List.replicate e.lineLen e.fill) := by
  have hfresh : (freshEngine cfg e).rem = 0 := by unfold freshEngine; dsimp only; split <;> [rfl; exact hrem]
  show (if e.stopped then some (freshEngine cfg e, List.replicate e.lineLen e.fill)
    else writeCopies (freshEngine cfg e) (List.replicate e.lineLen e.fill)) = _
  rw [writeCopies_of_no_run hfresh (Nat.zero_le _) (Nat.zero_le _), ite_self]

/-- At the end of a scanline whose run is over, the engine emits it and is at the first position of the next,
or over. -/
theorem settle_of_lineEnd (hsuits : e.Suits s) (hstaged : e.Staged) (hy : e.y < e.lines) (hx : e.x = e.lineLen)
    (hrem : e.rem = 0) (hs : e.stopped = false) (hpos : 0 < e.lineLen) (hl : line.length = e.lineLen)
    (hd : p.draws = List.replicate e.writes .ok ++ ds) :
    ∃ e' line', settle cfg (e.lines - e.y) e line p =
        .ok (e', line') ⟨p.input, p.cursor, p.output ++ e.sends line, ds⟩ ∧
      e'.y = e.y + 1 ∧ (e.y + 1 < e.lines → e'.x = 0) := by
  obtain ⟨e₁, hemit⟩ := emitLine_of_served hsuits hstaged hy hl hd
  obtain ⟨hsame, heq, -⟩ := emitLine_ok hemit
  obtain ⟨n, hn⟩ : ∃ n, e.lines - e.y = n + 1 := ⟨e.lines - e.y - 1, by omega⟩
  rw [hn, settle, if_neg (by omega), hemit, andThen_ok]
  dsimp only
  by_cases hn0 : n = 0
  · exact ⟨e₁.nextLine, line, by rw [if_pos hn0]; rfl, by rw [heq]; rfl, fun hlt => by omega⟩
  · rw [if_neg hn0, startLine_of_no_run cfg (by rw [heq]; exact hrem), inRange_some, andThen_ok,
      settle_at_boundary cfg hn0 _ _ (by rw [heq]; exact hpos) (by rw [heq]; exact hs)]
    exact ⟨_, _, rfl, by rw [heq]; rfl, fun _ => rfl⟩

/-- A LIT that is served is written, and the engine settles. -/
theorem codeReply_of_literal {b : Byte} {rest : List Byte} (hbound : e.lineLen ≤ lineBound) (hat : e.AtCode line)
    (hin : p.input = b :: rest) (hb : isMarker b = false) (hd : p.draws = .ok :: ds) :
    codeReply cfg e line p = settle cfg (e.lines - e.y) { e with x := e.x + 1, rem := 0, val := b }
      (line.take e.x ++ [b] ++ line.drop (e.x + 1)) ⟨rest, p.cursor + 1, p.output, ds⟩ := by
  obtain ⟨hx, hrem, hs, hl⟩ := hat
  have hone : min (e.load (.lit b)).rem ((e.load (.lit b)).lineLen - (e.load (.lit b)).x) = 1 :=
    Nat.min_eq_left (show 1 ≤ e.lineLen - e.x by omega)
  have hwrite := writeCopies_of_fits (e := e.load (.lit b)) (line := line)
    (by rw [hone]; exact (Nat.succ_le_of_lt hx).trans hbound) (show e.x ≤ line.length by omega)
  rw [hone] at hwrite
  simp only [codeReply, fetchCode_of_served hd hin hb, andThen_ok, hwrite, inRange_some]
  rfl

/-- A LIT before the last position of its scanline. -/
theorem codeReply_of_literal_inside {b : Byte} {rest : List Byte} (hbound : e.lineLen ≤ lineBound)
    (hy : e.y < e.lines) (hat : e.AtCode line) (hx : e.x + 1 < e.lineLen) (hin : p.input = b :: rest)
    (hb : isMarker b = false) (hd : p.draws = .ok :: ds) :
    ∃ e' line', codeReply cfg e line p = .ok (e', line') ⟨rest, p.cursor + 1, p.output, ds⟩ ∧
      e'.y = e.y ∧ e'.x = e.x + 1 ∧ line'.take (e.x + 1) = line.take e.x ++ [b] := by
  rw [codeReply_of_literal hbound hat hin hb hd]
  obtain ⟨-, -, hs, hl⟩ := hat
  refine ⟨_, _, settle_at_boundary cfg (by omega) _ _ hx hs, rfl, rfl, List.take_left' ?_⟩
  rw [List.length_append, List.length_take, List.length_singleton]; omega

/-- A LIT at the last position of its scanline, whose output request is served. -/
theorem codeReply_of_literal_lineEnd {b : Byte} {rest : List Byte} (hsuits : e.Suits s) (hset : e.Settled line)
    (hy : e.y < e.lines) (hx : e.x + 1 = e.lineLen) (hin : p.input = b :: rest) (hb : isMarker b = false)
    (hd : p.draws = .ok :: (List.replicate e.writes .ok ++ ds)) :
    ∃ e' line', codeReply cfg e line p =
        .ok (e', line') ⟨rest, p.cursor + 1, p.output ++ e.sends (line.take e.x ++ [b]), ds⟩ ∧
      e'.y = e.y + 1 ∧ (e.y + 1 < e.lines → e'.x = 0) := by
  have hat := hset.atCode hy
  rw [codeReply_of_literal hsuits.1 hat hin hb hd]
  obtain ⟨-, -, hs, hl⟩ := hat
  have hline : line.take e.x ++ [b] ++ line.drop (e.x + 1) = line.take e.x ++ [b] := by simp; omega
  rw [hline]
  exact settle_of_lineEnd (e := { e with x := e.x + 1, rem := 0, val := b }) hsuits hset.staged hy hx rfl hs
    (by show 0 < e.lineLen; omega) (by simp; omega) rfl

/-! ### Literals one after another -/

/-- The positions a body has written, in the order of its scanlines. -/
def Engine.position (e : Engine) : Nat := e.y * e.lineLen + e.x

theorem writes_sends_of_sameBody {e' : Engine} (h : e.SameBody e') :
    e'.writes = e.writes ∧ ∀ bytes, e'.sends bytes = e.sends bytes := by
  unfold Engine.writes Engine.sends
  rw [h.consumer]
  exact ⟨rfl, fun _ => rfl⟩

/-- The first scanlines of a row of bytes that begins with a whole one. -/
theorem take_scanline {first rest : List Byte} {lineLen : Nat} (h : first.length = lineLen) (n : Nat) :
    (first ++ rest).take (lineLen * (n + 1)) = first ++ rest.take (lineLen * n) := by
  rw [Nat.mul_succ, Nat.add_comm, ← h, List.take_length_add_append]

/-- The requests of the next `k` LITs: each one's byte, and the output of each scanline they fill. -/
def Engine.requests (e : Engine) (k : Nat) : Nat := k + e.writes * ((e.x + k) / e.lineLen)

/-- What is sent of the present scanline and the next LITs' bytes: the scanlines they fill. -/
def Engine.filled (e : Engine) (line bytes : List Byte) : List Byte :=
  e.sends ((line.take e.x ++ bytes).take (e.lineLen * ((e.x + bytes.length) / e.lineLen)))

/-- One served LIT of several, inside a scanline or at its end. -/
theorem codeReply_of_literal_next {k : Nat} {b : Byte} {rest : List Byte} (hsuits : e.Suits s)
    (hset : e.Settled line) (hy : e.y < e.lines) (hroom : e.position + 1 < e.lines * e.lineLen)
    (hin : p.input = b :: rest) (hb : isMarker b = false)
    (hd : p.draws = List.replicate (e.requests (k + 1)) .ok ++ ds) :
    ∃ e' line' out, codeReply cfg e line p =
        .ok (e', line') ⟨rest, p.cursor + 1, out, List.replicate (e'.requests k) .ok ++ ds⟩ ∧
      e'.y < e'.lines ∧ e'.position = e.position + 1 ∧
      ∀ bytes, bytes.length = k → out ++ e'.filled line' bytes = p.output ++ e.filled line (b :: bytes) := by
  have hat := hset.atCode hy
  obtain ⟨hx, -, -, hl⟩ := id hat
  unfold Engine.position Engine.requests at *
  by_cases hlast : e.x + 1 = e.lineLen
  · have hdiv : ∀ k, (e.x + (k + 1)) / e.lineLen = k / e.lineLen + 1 := fun k => by
      rw [show e.x + (k + 1) = k + e.lineLen by omega, Nat.add_div_right _ (by omega)]
    have hdraws : p.draws = .ok :: (List.replicate e.writes .ok ++
        (List.replicate (k + e.writes * (k / e.lineLen)) .ok ++ ds)) := by
      rw [hd, hdiv, ← List.append_assoc, ← List.replicate_add, ← List.cons_append, ← List.replicate_succ]
      congr 2; ring
    obtain ⟨e', line', hcode, hy', hx'⟩ :=
      codeReply_of_literal_lineEnd (cfg := cfg) hsuits hset hy hlast hin hb hdraws
    have hsame := codeReply_sameBody hcode
    obtain ⟨hwrites, hsends⟩ := writes_sends_of_sameBody hsame
    have hmore : e.y + 1 < e.lines := Nat.lt_of_mul_lt_mul_right (a := e.lineLen) (by rw [Nat.succ_mul]; omega)
    have hx' := hx' hmore
    have hline : (line.take e.x ++ [b]).length = e.lineLen := by simp; omega
    refine ⟨e', line', p.output ++ e.sends (line.take e.x ++ [b]), ?_, by rw [hy', hsame.lines]; exact hmore, ?_,
      fun bytes hbytes => ?_⟩
    · rw [hcode, hwrites, hx', hsame.lineLen, Nat.zero_add]
    · rw [hy', hx', hsame.lineLen, Nat.succ_mul]; omega
    · unfold Engine.filled
      rw [List.length_cons, hdiv, List.append_cons _ b bytes, take_scanline hline, sends_append _ (_ ++ [b]), hx',
        hsame.lineLen, hsends, List.take_zero, List.nil_append, Nat.zero_add, List.append_assoc]
  · have hdraws : p.draws = .ok :: (List.replicate (k + e.writes * ((e.x + 1 + k) / e.lineLen)) .ok ++ ds) := by
      rw [hd, ← List.cons_append, ← List.replicate_succ, show e.x + (k + 1) = e.x + 1 + k by omega]
      congr 2; omega
    obtain ⟨e', line', hcode, hy', hx', hline⟩ :=
      codeReply_of_literal_inside (cfg := cfg) hsuits.1 hy hat (by omega) hin hb hdraws
    have hsame := codeReply_sameBody hcode
    obtain ⟨hwrites, hsends⟩ := writes_sends_of_sameBody hsame
    refine ⟨e', line', p.output, ?_, by rw [hy', hsame.lines]; exact hy, ?_, fun bytes hbytes => ?_⟩
    · rw [hcode, hwrites, hx', hsame.lineLen]
    · rw [hy', hx', hsame.lineLen]; omega
    · unfold Engine.filled
      rw [List.length_cons, hx', hline, hsame.lineLen, hsends, List.append_assoc, List.singleton_append,
        Nat.add_assoc, Nat.add_comm 1]

/-- `k` served LITs write `k` positions, and emitRaw sends the scanlines they fill. -/
theorem bodyReply_of_literals {k : Nat} (fuel : Nat) (hsuits : e.Suits s) (hset : e.Settled line) (hy : e.y < e.lines)
    (hroom : e.position + k < e.lines * e.lineLen) (hk : k ≤ p.input.length) (hlit : literal (p.input.take k))
    (hd : p.draws = List.replicate (e.requests k) .ok ++ ds) :
    ∃ e' line', bodyReply cfg (fuel + k) e line p = bodyReply cfg fuel e' line'
        ⟨p.input.drop k, p.cursor + k, p.output ++ e.filled line (p.input.take k), ds⟩ ∧
      e.SameBody e' ∧ e'.Settled line' ∧ e'.y < e'.lines ∧ e'.position = e.position + k := by
  induction k generalizing e line p with
  | zero =>
    obtain ⟨hx, -⟩ := hset.atCode hy
    have hdiv : e.x / e.lineLen = 0 := Nat.div_eq_of_lt hx
    have hfilled : e.filled line [] = [] := by simp only [Engine.filled, Engine.sends]; split <;> simp [hdiv]
    have hds : p.draws = ds := by simpa [Engine.requests, hdiv] using hd
    exact ⟨e, line, by simp [hfilled, ← hds], .refl e, hset, hy, rfl⟩
  | succ k ih =>
    obtain ⟨b, rest, hin⟩ := List.exists_cons_of_length_pos (show 0 < p.input.length by omega)
    rw [hin, List.take_succ_cons] at hlit
    have hlen : k ≤ rest.length := by simpa [hin] using hk
    obtain ⟨e₁, line₁, out, hcode, hy₁, hpos₁, hout⟩ := codeReply_of_literal_next (cfg := cfg) hsuits hset hy
      (by omega) hin (hlit b (by simp)) hd
    have hsame := codeReply_sameBody hcode
    obtain ⟨e₂, line₂, hbody, hsame₂, hset₂, hy₂, hpos₂⟩ := ih (e := e₁) (line := line₁)
      (p := ⟨rest, p.cursor + 1, out, List.replicate (e₁.requests k) .ok ++ ds⟩) (suits_of_sameBody hsame hsuits)
      (codeReply_settled hy hset hcode) hy₁ (by rw [hpos₁, hsame.lines, hsame.lineLen]; omega) hlen
      (fun c hc => hlit c (List.mem_cons_of_mem _ hc)) rfl
    refine ⟨e₂, line₂, ?_, hsame.trans hsame₂, hset₂, hy₂, by omega⟩
    rw [show fuel + (k + 1) = fuel + k + 1 by omega, bodyReply, if_pos hy, hcode, andThen_ok, hbody,
      hout _ (List.length_take_of_le hlen), hin, List.take_succ_cons, List.drop_succ_cons, Nat.add_assoc,
      Nat.add_comm 1]

/-! ### A body from its entry -/

/-- An engine at the entry of its command's body, with a position to write. -/
structure Engine.Enters (s : State) (e : Engine) : Prop where
  suits : e.Suits s
  staged : e.Staged
  y_eq : e.y = 0
  x_eq : e.x = 0
  rem_eq : e.rem = 0
  running : e.stopped = false
  lineLen_pos : 0 < e.lineLen
  lines_pos : 0 < e.lines

theorem settled_of_enters (h : e.Enters s) : e.Settled (List.replicate e.lineLen e.fill) where
  y_le := by rw [h.y_eq]; omega
  staged := h.staged
  atCode _ := ⟨h.x_eq ▸ h.lineLen_pos, h.rem_eq, h.running, List.length_replicate⟩

theorem enterBody_of_enters (cfg : Config) (h : e.Enters s) (p : Ports) :
    enterBody cfg e p = .ok (e, List.replicate e.lineLen e.fill) p := by
  have hfresh : freshEngine cfg e = e := by
    have hx := h.x_eq
    have hrem := h.rem_eq
    obtain ⟨lineLen, lines, fill, consumer, staged, y, x, rem, val, stopped⟩ := e
    simp only at hx hrem
    subst hx hrem
    unfold freshEngine
    split <;> rfl
  have hlines := h.lines_pos
  rw [enterBody, if_neg (by omega), startLine_of_no_run cfg h.rem_eq, hfresh, inRange_some, andThen_ok]
  exact settle_at_boundary cfg (by omega) _ _ (h.x_eq ▸ h.lineLen_pos) h.running

/-- The entry of a body, and its first `k` LITs. -/
theorem runBody_of_literals {k : Nat} (h : e.Enters s) (hroom : k < e.lines * e.lineLen) (hk : k ≤ p.input.length)
    (hlit : literal (p.input.take k))
    (hd : p.draws = List.replicate (k + e.writes * (k / e.lineLen)) .ok ++ ds) :
    ∃ e' line', runBody cfg e p = bodyReply cfg (p.input.length - k + 1) e' line'
        ⟨p.input.drop k, p.cursor + k, p.output ++ e.sends ((p.input.take k).take (e.lineLen * (k / e.lineLen))), ds⟩ ∧
      e.SameBody e' ∧ e'.Settled line' ∧ e'.y < e'.lines ∧ e'.position = k := by
  have hpos : e.position = 0 := by simp [Engine.position, h.y_eq, h.x_eq]
  obtain ⟨e', line', hbody, hsame, hset, hy, hpos'⟩ := bodyReply_of_literals (cfg := cfg) (p.input.length - k + 1)
    h.suits (settled_of_enters h) (h.y_eq ▸ h.lines_pos) (by omega) hk hlit
    (by rw [hd, Engine.requests, h.x_eq, Nat.zero_add])
  refine ⟨e', line', ?_, hsame, hset, hy, by omega⟩
  rw [runBody, enterBody_of_enters cfg h, andThen_ok, show p.input.length + 1 = p.input.length - k + 1 + k by omega,
    hbody, Engine.filled, h.x_eq, List.length_take_of_le hk, List.take_zero, List.nil_append, Nat.zero_add]

/-- A read that fails after `k` LITs (R82, R411). -/
theorem runBody_of_failedRead {k m : Nat} (h : e.Enters s) (hroom : k < e.lines * e.lineLen)
    (hk : k ≤ p.input.length) (hlit : literal (p.input.take k))
    (hd : p.draws = List.replicate (k + e.writes * (k / e.lineLen)) .ok ++ .fail m :: ds) :
    runBody cfg e p = .error .accessIn (advance (min m 1)
      ⟨p.input.drop k, p.cursor + k,
        p.output ++ e.sends ((p.input.take k).take (e.lineLen * (k / e.lineLen))), ds⟩) := by
  obtain ⟨e', line', hbody, -, -, hy, -⟩ := runBody_of_literals (cfg := cfg) h hroom hk hlit hd
  rw [hbody, bodyReply, if_pos hy, codeReply, fetchCode_of_failed rfl]
  rfl

/-- A body of LITs alone that sends nothing, to its end. -/
theorem runBody_of_full {n : Nat} (h : e.Enters s) (hraw : e.consumer ≠ .raw) (hn : n = e.lines * e.lineLen)
    (hlen : n ≤ p.input.length) (hlit : literal (p.input.take n)) (hd : p.draws = List.replicate n .ok ++ ds) :
    ∃ e' line', runBody cfg e p = .ok (e', line') ⟨p.input.drop n, p.cursor + n, p.output, ds⟩ := by
  have hsends : ∀ bytes, e.sends bytes = [] := sends_of_not_raw hraw
  have hwrites := writes_of_not_raw hraw
  have hpos : 0 < n := by rw [hn]; exact Nat.mul_pos h.lines_pos h.lineLen_pos
  obtain ⟨k, rfl⟩ : ∃ k, n = k + 1 := ⟨n - 1, by omega⟩
  obtain ⟨e', line', hbody, hsame, hset, hy, hposition⟩ := runBody_of_literals (cfg := cfg) (k := k) (p := p)
    (ds := .ok :: ds) h (by omega) (by omega)
    (fun b hb => hlit b (List.take_subset_take_left _ (Nat.le_succ k) hb))
    (by rw [hd, hwrites, Nat.zero_mul, Nat.add_zero, List.replicate_succ', List.append_assoc]; rfl)
  obtain ⟨b, rest, hin⟩ := List.exists_cons_of_length_pos (show 0 < (p.input.drop k).length by simp; omega)
  have hb : isMarker b = false := hlit b (by rw [List.take_add, hin]; simp)
  have hrest : rest = p.input.drop (k + 1) := by rw [← List.drop_drop, hin]; rfl
  have hlast : e'.x + 1 = e'.lineLen ∧ e'.y + 1 = e'.lines := by
    obtain ⟨hx, -⟩ := hset.atCode hy
    unfold Engine.position at hposition
    rw [← hsame.lines, ← hsame.lineLen] at hn
    have hle : (e'.y + 1) * e'.lineLen ≤ e'.lines * e'.lineLen := Nat.mul_le_mul_right _ hy
    rw [Nat.succ_mul] at hle
    have hx1 : e'.x + 1 = e'.lineLen := by omega
    exact ⟨hx1, Nat.eq_of_mul_eq_mul_right (show 0 < e'.lineLen by omega) (by rw [Nat.succ_mul]; omega)⟩
  obtain ⟨e₂, line₂, hcode, hy₂, -⟩ := codeReply_of_literal_lineEnd (cfg := cfg) (s := s) (ds := ds)
    (p := ⟨p.input.drop k, p.cursor + k, p.output, .ok :: ds⟩) (suits_of_sameBody hsame h.suits) hset hy
    hlast.1 hin hb (by rw [(writes_sends_of_sameBody hsame).1, hwrites]; rfl)
  have hover : ¬ e₂.y < e₂.lines := by
    have := (codeReply_sameBody hcode).lines
    omega
  refine ⟨e₂, line₂, ?_⟩
  rw [hbody, hsends, List.append_nil, bodyReply, if_pos hy, hcode, andThen_ok, bodyReply_of_over _ _ _ hover,
    (writes_sends_of_sameBody hsame).2, hsends, List.append_nil, hrest, Nat.add_assoc]

end Literals

/-! ### The commands up to their bodies -/

section Commands
variable {s u : State} {p : Ports} {ds : List PortDraw}

/-- A served header that passes the checks (spec/40_header.md R146 to R150). -/
theorem headerRead_of_accepted {cfg : Config} {h : Header} (hd : p.draws = .ok :: ds) (hn : 68 ≤ p.input.length)
    (hh : parseHeader (p.input.take 68) = h) (hacc : h.Accepted cfg) :
    headerRead cfg p = .ok ⟨h, h.width.toNat, h.height.toNat⟩ (advance 68 { p with draws := ds }) := by
  obtain ⟨hbpp, hplanes, hw, hheight, hbpl, hlarge, htall⟩ := hacc
  simp [headerRead, readExact_of_served hd hn, hh, checkHeader, requireHeight, require, hbpp, hplanes, hw, hheight,
    hbpl, hlarge, htall]

/-- DECODE of a stream whose header and tail are served: its body runs on what is left. -/
theorem execDecode_body {h : Header} (hready : s.Ready) (hh : streamHeader s = h) (hacc : h.Accepted s.cfg)
    (hlen : 128 ≤ s.ports.input.length) (hd : s.ports.draws = .ok :: .ok :: ds) :
    ∃ u e, KeepsAll s u ∧ e.Enters { s with hdr := h } ∧ e.lineLen = h.planes.toNat * h.bpl.toNat ∧
      e.lines = h.height.toNat ∧ e.consumer = (if h.planes = 1#8 then .indexed else .planar) ∧
      exec .decode s = continueBody u (runBody s.cfg e ⟨s.ports.input.drop 128, 128, [], ds⟩) := by
  have hread := headerRead_of_accepted (p := (prologue s).ports) hd (by simp; omega) hh hacc
  obtain ⟨hgeo, hplanes⟩ := headerRead_ok hread
  obtain ⟨hw1, hh1, hwb, -⟩ := id hgeo
  have hskip := skip_of_served (n := 60) (p := advance 68 { (prologue s).ports with draws := .ok :: ds }) rfl
    (by simp; omega)
  obtain ⟨line, ph, p', hwhole⟩ := wholeCommand_beginDecode_body (s := prologue s) hread hskip
  have hports : advance 60 { advance 68 { (prologue s).ports with draws := .ok :: ds } with draws := ds } =
      ⟨s.ports.input.drop 128, 128, [], ds⟩ := by simp [advance, startPorts]
  rw [hports] at hwhole
  have hkeeps : KeepsAll s ((prologue s).withScratch h line ph p') := keepsAll_prologue s
  have hexec : exec .decode s = wholeCommand (beginDecode (prologue s)) :=
    runCommand_of_ready hready fun s => wholeCommand (beginDecode s)
  refine ⟨_, _, hkeeps, ?_, rfl, rfl, rfl, hexec.trans hwhole⟩
  have hpos : 0 < h.planes.toNat * h.bpl.toNat :=
    Nat.mul_pos (by obtain hp | hp := hplanes <;> rw [hp] <;> decide) (by show 0 < h.bpl.toNat; omega)
  exact ⟨decodeEngine_suits rfl hgeo hplanes, by simp [Engine.Staged, decodeEngine, stagedImage], rfl, rfl, rfl, rfl,
    hpos, hh1⟩

/-- RLE_DECODE with a scanline length that LINE holds: its body runs on the whole input. -/
theorem execRleDecode_body (hready : s.Ready) (h1 : 1 ≤ s.arg0.toNat) (h2 : s.arg0.toNat ≤ 3 * 65535) :
    ∃ u, KeepsAll s u ∧ u.status = Status.running ∧
      exec .rleDecode s = continueBody u (runBody s.cfg (rawEngine s) (startPorts s.ports)) := by
  obtain ⟨line, ph, p', hwhole⟩ := wholeCommand_beginRleDecode (prologue s)
  have hreply : rleReply (prologue s) = runBody s.cfg (rawEngine s) (startPorts s.ports) := by
    rw [rleReply, require_true (decide_eq_true ⟨h1, h2⟩), andThen_ok]
    rfl
  rw [hreply] at hwhole
  have hkeeps : KeepsAll s ((prologue s).withScratch (prologue s).hdr line ph p') := keepsAll_prologue s
  have hexec : exec .rleDecode s = wholeCommand (beginRleDecode (prologue s)) :=
    runCommand_of_ready hready fun s => wholeCommand (beginRleDecode s)
  exact ⟨_, hkeeps, rfl, hexec.trans hwhole⟩

theorem rawEngine_enters (h1 : 1 ≤ s.arg0.toNat) (h2 : s.arg0.toNat ≤ 3 * 65535) (h3 : 0 < s.arg1.toNat) :
    (rawEngine s).Enters s :=
  ⟨by simpa [Engine.Suits, rawEngine, lineBound] using h2, by simp [Engine.Staged, rawEngine], rfl, rfl, rfl, rfl,
    h1, h3⟩

/-- RLE_DECODE's error and output are those of its body. -/
theorem continueBody_raw_error {r : Reply (Engine × List Byte)} {t : State} {er : CmdError}
    (hu : u.status.error = none) (hr : ∀ e l q, r = .ok (e, l) q → ¬ e.y < e.lines ∧ e.consumer = .raw)
    (ht : continueBody u r = .next t) (her : t.status.error = some er) :
    ∃ q, r = .error er q ∧ t.ports.output = q.output := by
  cases r with
  | ok b q =>
    obtain ⟨e, l⟩ := b
    obtain ⟨hy, hc⟩ := hr e l q rfl
    simp [continueBody, hy, finishBody, hc] at ht
    simp [← ht] at her
  | error er' q =>
    simp [continueBody] at ht
    simp [← ht] at her
    exact ⟨q, by rw [her], by simp [← ht]⟩
  | stall q =>
    simp [continueBody] at ht
    simp [← ht, hu] at her
  | refuse why => simp [continueBody] at ht

/-- What an RLE_DECODE that ends with a failing port has sent, on any stream (R411). -/
theorem execRleDecode_sentLines (hready : s.Ready) (h1 : 1 ≤ s.arg0.toNat) (h2 : s.arg0.toNat ≤ 3 * 65535) {t : State}
    {er : CmdError} (ht : exec .rleDecode s = .next t) (her : t.status.error = some er) :
    ∃ q, t.ports.output = q.output ∧ SentLines
      (refDecodeBody s.cfg.lineRunPolicy s.arg0.toNat s.arg1.toNat s.arg2 s.ports.input).1 s.arg1.toNat er q := by
  obtain ⟨u, -, hstatus, hexec⟩ := execRleDecode_body hready h1 h2
  have hpost := runBody_sentLines (cfg := s.cfg) (e := rawEngine s) (p := startPorts s.ports) rfl rfl
    (by simp [Engine.Staged, rawEngine]) rfl rfl
  obtain ⟨q, hq, hout⟩ := continueBody_raw_error (by rw [hstatus]; rfl)
    (fun _ _ _ hr => (runBody_ends hr).imp_right Engine.SameBody.consumer) (hexec.symm.trans ht) her
  rw [hq] at hpost
  exact ⟨q, hout, hpost⟩

end Commands

end Sys2Proof.Machine
end

section
/-! PROOFS. How a command ends when a port fails or stays silent (spec/20_memory.md R76, R77, R82,
spec/60_exceptions.md R401, R410, R411, spec/70_reset_and_hazards.md R452). -/

namespace Sys2Proof.Machine

open Host

section Ports
variable {p : Ports} {ds : List PortDraw}

/-- A row of requests whose request `k` fails: the parts before it, and a first part of that one. -/
theorem sendParts_of_failed {parts : List (List Byte)} {k m : Nat} {part : List Byte} (hk : parts[k]? = some part) :
    sendParts parts (List.replicate k .ok ++ .fail m :: ds) =
      ((parts.take k).flatten ++ part.take m, .failed, ds) := by
  induction parts generalizing k with
  | nil => simp at hk
  | cons first parts ih =>
    cases k with
    | zero => simp at hk; simp [sendParts, hk]
    | succ k => simp [List.replicate_succ, sendParts, ih (k := k) (by simpa using hk)]

theorem writeAll_of_failed {parts : List (List Byte)} {k m : Nat} {part : List Byte} (hk : parts[k]? = some part)
    (hd : p.draws = List.replicate k .ok ++ .fail m :: ds) :
    writeAll parts p = .error .accessOut
      { p with output := p.output ++ ((parts.take k).flatten ++ part.take m), draws := ds } := by
  simp [writeAll, hd, sendParts_of_failed hk]

theorem writeAll_of_silent {part : List Byte} {parts : List (List Byte)} {m : Nat} (hd : p.draws = .never m :: ds) :
    writeAll (part :: parts) p = .stall { p with output := p.output ++ part.take m, draws := ds } := by
  simp [writeAll, hd, sendParts]

theorem headerRead_of_failed {cfg : Config} {m : Nat} (hd : p.draws = .fail m :: ds) :
    headerRead cfg p = .error .accessIn (advance (min m 68) { p with draws := ds }) := by
  simp [headerRead, readExact, answer, hd, inFailed]

theorem headerRead_of_silent {cfg : Config} {m : Nat} (hd : p.draws = .never m :: ds) :
    headerRead cfg p = .stall { p with draws := ds } := by
  simp [headerRead, readExact, answer, hd]

/-- A read that fails in the palette table, after the marker and `j` of its bytes. -/
theorem resolvePalette_of_failed {j m : Nat} {rest : List Byte} (fb : List Rgb) (hin : p.input = 0x0C#8 :: rest)
    (hj : j < 768) (hlen : j ≤ rest.length) (hd : p.draws = .ok :: (List.replicate j .ok ++ .fail m :: ds)) :
    resolvePalette fb p = .error .accessIn
      (advance (j + min m 1) { p with input := rest, cursor := p.cursor + 1, draws := ds }) := by
  have hscan : scanForMarker p =
      .ok true ⟨rest, p.cursor + 1, p.output, List.replicate j .ok ++ .fail m :: ds⟩ := by
    simp [scanForMarker, scanLoop, readByte_of_served hd hin]
  rw [resolvePalette, hscan, andThen_ok, if_pos rfl, readBytesOr_of_failed hj hlen rfl, andThen_error]

end Ports

section Ends
variable {s u : State} {o : Outcome State Fault Refusal} {q : Ports}

/-- A command that ends with an error keeps everything but STATUS, the counts and the scratch (R410). -/
theorem ended_of_error {er : CmdError} {used : Nat} {out : List Byte} (hu : KeepsAll s u)
    (ho : o = .next (endCommand (Status.failure er) q u)) (hused : q.cursor = used) (hout : q.output = out) :
    ∃ t, o = .next t ∧ Ended t (Status.failure er) used out ∧ KeepsAll s t := by
  subst hused hout
  exact ⟨_, ho, endCommand_ended _ q u, by simpa [KeepsAll, KeepsResults, KeepsOperands] using hu⟩

/-- A command that waits for a silent port keeps everything, stays BUSY, and the core moves no further (R452). -/
theorem stalled_of_silent (hu : KeepsAll s u) (hbusy : u.status = Status.running) (ho : o = .next (stallCommand q u)) :
    ∃ t, o = .next t ∧ t.status.busy = true ∧ t.phase = .stalled ∧ t.ports = q ∧ KeepsAll s t ∧
      coreMove .command t = .next t :=
  ⟨_, ho, by simp [hbusy], rfl, rfl, by simpa [KeepsAll, KeepsResults, KeepsOperands] using hu, rfl⟩

end Ends

/-! ### The commands -/

section Commands
variable {s : State} {m : Nat} {ds : List PortDraw}

/-- An INDEXED Image is written out (R352). -/
theorem emitImage_of_indexed {u : State} (parts : Image → List (List Byte)) (hrepr : u.image.repr = .indexed)
    (hwf : Memory.wf u.image) :
    emitImage u requireIndexed parts = conclude u (writeAll (parts u.image) u.ports) noEffect := by
  rw [emitImage, requireIndexed_of_wf _ hrepr hwf, andThen_ok]

theorem readPalette_of_failed {k : Nat} {p : Sample} (hready : s.Ready) (hrepr : s.image.repr = .indexed)
    (hwf : Memory.wf s.image) (hk : s.image.pal[k]? = some p)
    (hd : s.ports.draws = List.replicate k .ok ++ .fail m :: ds) :
    ∃ t, exec .readPalette s = .next t ∧
      Ended t (Status.failure .accessOut) 0 ((s.image.pal.take k).flatMap rgba ++ (rgba p).take m) ∧ KeepsAll s t := by
  have hwrite := writeAll_of_failed (parts := s.image.pal.map rgba) (p := (prologue s).ports) (part := rgba p)
    (by simp [hk]) hd
  have hexec : exec .readPalette s =
      conclude (prologue s) (writeAll (s.image.pal.map rgba) (prologue s).ports) noEffect :=
    (runCommand_of_ready hready fun s => emitImage s requireIndexed fun img => img.pal.map rgba).trans
      (emitImage_of_indexed (u := prologue s) _ hrepr hwf)
  rw [hwrite, conclude_error] at hexec
  exact ended_of_error (keepsAll_prologue s) hexec rfl (by simp [List.flatMap_def, List.map_take])

theorem readIndex_of_silent (hready : s.Ready) (hrepr : s.image.repr = .indexed) (hwf : Memory.wf s.image)
    (hd : s.ports.draws = .never m :: ds) :
    ∃ t, exec .readIndex s = .next t ∧ t.status.busy = true ∧ t.phase = .stalled ∧
      t.ports.output = s.image.idx.take m ∧ KeepsAll s t ∧ coreMove .command t = .next t := by
  have hwrite := writeAll_of_silent (part := s.image.idx) (parts := []) (p := (prologue s).ports) hd
  have hexec : exec .readIndex s = conclude (prologue s) (writeAll [s.image.idx] (prologue s).ports) noEffect :=
    (runCommand_of_ready hready fun s => emitImage s requireIndexed fun img => [img.idx]).trans
      (emitImage_of_indexed (u := prologue s) _ hrepr hwf)
  rw [hwrite, conclude_stall] at hexec
  obtain ⟨t, ht, hbusy, hphase, hports, hkeeps⟩ := stalled_of_silent (keepsAll_prologue s) rfl hexec
  exact ⟨t, ht, hbusy, hphase, by rw [hports]; rfl, hkeeps⟩

/-- PROBE is its header's reading (spec/45_commands.md R355). -/
theorem exec_probe_of_ready (hready : s.Ready) :
    exec .probe s = conclude (prologue s) (headerRead s.cfg (prologue s).ports) fun info s =>
      setResults info.w info.h (headerResults info false) s :=
  runCommand_of_ready hready fun s => conclude s (headerRead s.cfg s.ports) fun info s =>
    setResults info.w info.h (headerResults info false) s

theorem probe_of_failed (hready : s.Ready) (hd : s.ports.draws = .fail m :: ds) :
    ∃ t, exec .probe s = .next t ∧ Ended t (Status.failure .accessIn) (min m 68) [] ∧ KeepsAll s t := by
  have hexec := exec_probe_of_ready hready
  rw [headerRead_of_failed (by exact hd), conclude_error] at hexec
  exact ended_of_error (keepsAll_prologue s) hexec (by simp) rfl

theorem probe_of_silent (hready : s.Ready) (hd : s.ports.draws = .never m :: ds) :
    ∃ t, exec .probe s = .next t ∧ t.status.busy = true ∧ t.phase = .stalled ∧ KeepsAll s t ∧
      coreMove .command t = .next t := by
  have hexec := exec_probe_of_ready hready
  rw [headerRead_of_silent (by exact hd), conclude_stall] at hexec
  obtain ⟨t, ht, hbusy, hphase, -, hkeeps⟩ := stalled_of_silent (keepsAll_prologue s) rfl hexec
  exact ⟨t, ht, hbusy, hphase, hkeeps⟩

theorem decode_of_failedBody {j : Nat} {h : Header} (hready : s.Ready) (hh : streamHeader s = h)
    (hacc : h.Accepted s.cfg) (hlen : 128 + j ≤ s.ports.input.length)
    (hroom : j < h.planes.toNat * h.bpl.toNat * h.height.toNat) (hlit : literal ((s.ports.input.drop 128).take j))
    (hd : s.ports.draws = List.replicate (2 + j) .ok ++ .fail m :: ds) :
    ∃ t, exec .decode s = .next t ∧ Ended t (Status.failure .accessIn) (128 + j + min m 1) [] ∧ KeepsAll s t := by
  have hd : s.ports.draws = .ok :: .ok :: (List.replicate j .ok ++ .fail m :: ds) := by
    rw [hd, List.replicate_add]; rfl
  obtain ⟨u, e, hkeeps, henters, hlineLen, hlines, hc, hexec⟩ := execDecode_body hready hh hacc (by omega) hd
  have hraw : e.consumer ≠ .raw := by rw [hc]; split <;> decide
  rw [runBody_of_failedRead (m := m) (ds := ds) henters (by rw [hlineLen, hlines, Nat.mul_comm]; exact hroom)
    (by simp; omega) hlit (by simp [writes_of_not_raw hraw])] at hexec
  exact ended_of_error hkeeps hexec (by simp) (by simp [sends_of_not_raw hraw])

theorem decode_of_failedPalette {n j : Nat} {h : Header} (hready : s.Ready) (hh : streamHeader s = h)
    (hacc : h.Accepted s.cfg) (hplanes : h.planes = 1#8) (hn : n = h.bpl.toNat * h.height.toNat)
    (hlit : literal ((s.ports.input.drop 128).take n)) (hmarker : s.ports.input[128 + n]? = some 0x0C#8)
    (hj : j < 768) (hlen : 129 + n + j ≤ s.ports.input.length)
    (hd : s.ports.draws = List.replicate (3 + n + j) .ok ++ .fail m :: ds) :
    ∃ t, exec .decode s = .next t ∧
      Ended t (Status.failure .accessIn) (129 + n + j + min m 1) [] ∧ KeepsAll s t := by
  have hd : s.ports.draws =
      .ok :: .ok :: (List.replicate n .ok ++ .ok :: (List.replicate j .ok ++ .fail m :: ds)) := by
    rw [hd, show 3 + n + j = 2 + (n + (1 + j)) by omega, List.replicate_add, List.replicate_add, List.replicate_add,
      List.append_assoc, List.append_assoc, List.append_assoc]
    rfl
  obtain ⟨u, e, hkeeps, henters, hlineLen, hlines, hc, hexec⟩ := execDecode_body hready hh hacc (by omega) hd
  rw [if_pos hplanes] at hc
  obtain ⟨e', line', hbody⟩ := runBody_of_full (cfg := s.cfg) henters (by simp [hc])
    (show n = _ by rw [hlineLen, hlines, hplanes, hn]; simp [Nat.mul_comm])
    (p := ⟨s.ports.input.drop 128, 128, [], _⟩) (ds := .ok :: (List.replicate j .ok ++ .fail m :: ds))
    (by simp; omega) hlit rfl
  obtain ⟨hover, hsame⟩ := runBody_ends hbody
  have hin : (s.ports.input.drop 128).drop n = 0x0C#8 :: s.ports.input.drop (129 + n) := by
    obtain ⟨hlt, hget⟩ := List.getElem?_eq_some_iff.mp hmarker
    rw [List.drop_drop, List.drop_eq_getElem_cons hlt, hget, show 129 + n = 128 + n + 1 by omega]
  have hpal := resolvePalette_of_failed u.hdr.fb (m := m) (ds := ds)
    (p := ⟨(s.ports.input.drop 128).drop n, 128 + n, [], _⟩) hin hj (by simp; omega) rfl
  rw [hbody] at hexec
  simp only [continueBody, if_neg hover, finishBody, hsame.consumer, hc, hpal, conclude_error] at hexec
  exact ended_of_error hkeeps hexec (by simp; omega) rfl

theorem rleDecode_of_failedRead {n j : Nat} (hready : s.Ready) (h1 : 1 ≤ s.arg0.toNat) (h2 : s.arg0.toNat ≤ 3 * 65535)
    (hn : n < s.arg1.toNat) (hj : j < s.arg0.toNat) (hlen : n * s.arg0.toNat + j ≤ s.ports.input.length)
    (hlit : literal (s.ports.input.take (n * s.arg0.toNat + j)))
    (hd : s.ports.draws = List.replicate (n * (s.arg0.toNat + 1) + j) .ok ++ .fail m :: ds) :
    ∃ t, exec .rleDecode s = .next t ∧
      Ended t (Status.failure .accessIn) (n * s.arg0.toNat + j + min m 1) (s.ports.input.take (n * s.arg0.toNat)) ∧
      KeepsAll s t := by
  obtain ⟨u, hkeeps, -, hexec⟩ := execRleDecode_body hready h1 h2
  have hdiv : (n * s.arg0.toNat + j) / s.arg0.toNat = n := by
    rw [Nat.mul_comm, Nat.mul_add_div h1, Nat.div_eq_of_lt hj, Nat.add_zero]
  have hroom : n * s.arg0.toNat + j < s.arg1.toNat * s.arg0.toNat :=
    calc n * s.arg0.toNat + j < (n + 1) * s.arg0.toNat := by rw [Nat.succ_mul]; omega
      _ ≤ s.arg1.toNat * s.arg0.toNat := Nat.mul_le_mul_right _ hn
  have hrequests : n * (s.arg0.toNat + 1) + j =
      n * s.arg0.toNat + j + (rawEngine s).writes * ((n * s.arg0.toNat + j) / s.arg0.toNat) := by
    rw [hdiv]
    show _ = n * s.arg0.toNat + j + 1 * n
    ring
  rw [hrequests] at hd
  rw [runBody_of_failedRead (p := startPorts s.ports) (rawEngine_enters h1 h2 (by omega)) hroom hlen hlit hd] at hexec
  refine ended_of_error hkeeps hexec (by simp) ?_
  show [] ++ (rawEngine s).sends _ = _
  rw [sends_of_raw rfl, List.nil_append, List.take_take]
  show List.take (min (s.arg0.toNat * ((n * s.arg0.toNat + j) / s.arg0.toNat)) _) s.ports.input = _
  rw [hdiv, Nat.mul_comm, Nat.min_eq_left (by omega)]

end Commands

end Sys2Proof.Machine

namespace Sys2Proof.Proofs

open Sys2Proof Sys2Proof.Machine Host

/-- Settles O47: the requests before the failing one are served, so the command is run up to it; on any stream
RLE_DECODE follows R184's loops scanline by scanline. -/
theorem portFailures : Obligations.PortFailures := by
  unfold Obligations.PortFailures
  intro s m ds hready
  refine ⟨fun k p hrepr hwf hk hd => readPalette_of_failed hready hrepr hwf hk hd,
    fun hrepr hwf hd => readIndex_of_silent hready hrepr hwf hd, fun hd => probe_of_failed hready hd,
    fun hd => probe_of_silent hready hd,
    fun j hacc hlen hroom hlit hd => decode_of_failedBody hready rfl hacc hlen hroom hlit hd,
    fun n j hacc hplanes hn hlit hmarker hj hlen hd =>
      decode_of_failedPalette hready rfl hacc hplanes hn hlit hmarker hj hlen hd,
    fun h1 h2 => ⟨fun n j hn hj hlen hlit hd => rleDecode_of_failedRead hready h1 h2 hn hj hlen hlit hd,
      fun t lines ht hlines => ⟨fun her => ?_, fun her => ?_⟩⟩⟩
  · obtain ⟨q, hout, hsent, -⟩ := execRleDecode_sentLines hready h1 h2 ht her
    rw [hout, hlines]
    exact hsent rfl
  · obtain ⟨q, hout, -, hsent⟩ := execRleDecode_sentLines hready h1 h2 ht her
    rw [hout, hlines]
    exact hsent rfl

end Sys2Proof.Proofs
end

section
/-! PROOFS. The two encodings (spec/30_encoding.md): a code's form and count from its bytes (R100 to R103), the
command word (R106, R107, R109), and the pseudo-instructions against the encoder (R113). -/

namespace Sys2Proof.Machine

open Host Sys2Proof.Laws

/-! ### The code forms (R100 to R103) -/

/-- The marker test as a bound on the byte: 0xC0 is the lowest byte with its top two bits set. -/
theorem isMarker_iff (b : Byte) : isMarker b = true ↔ 0xC0 ≤ b.toNat := by
  revert b; decide

/-- The first byte of a RUN holds its count below the two marker bits. -/
theorem runByte_toNat (n : BitVec 6) : (0xC0#8 ||| n.setWidth 8).toNat = 0xC0 + n.toNat := by
  have hsum : 2 ^ 6 * 3 + n.toNat = 2 ^ 6 * 3 ||| n.toNat := Nat.two_pow_add_eq_or_of_lt n.isLt 3
  rw [BitVec.toNat_or, BitVec.toNat_setWidth_of_le (by decide)]
  exact hsum.symm

theorem isMarker_runByte (n : BitVec 6) : isMarker (0xC0#8 ||| n.setWidth 8) = true := by
  rw [isMarker_iff, runByte_toNat]
  exact Nat.le_add_right _ _

theorem runCount_runByte (n : BitVec 6) : (0xC0#8 ||| n.setWidth 8).extractLsb' 0 6 = n := by
  apply BitVec.eq_of_toNat_eq
  rw [BitVec.extractLsb'_toNat, runByte_toNat]
  simp
  omega

theorem runCount_of_marker {b : Byte} (h : 0xC0 ≤ b.toNat) :
    b.extractLsb' 0 6 = BitVec.ofNat 6 (b.toNat - 0xC0) := by
  apply BitVec.eq_of_toNat_eq
  simp
  omega

theorem runByte_of_marker {b : Byte} (h : 0xC0 ≤ b.toNat) :
    0xC0#8 ||| (BitVec.ofNat 6 (b.toNat - 0xC0)).setWidth 8 = b := by
  apply BitVec.eq_of_toNat_eq
  rw [runByte_toNat, BitVec.toNat_ofNat]
  omega

theorem decodeCode_of_marker {b : Byte} (h : isMarker b = true) (v : Byte) (rest : List Byte) :
    decodeCode (b :: v :: rest) = .ok (.run (b.extractLsb' 0 6) v, rest) := by
  simp [decodeCode, h]

theorem decodeCode_of_not_marker {b : Byte} (h : isMarker b = false) (rest : List Byte) :
    decodeCode (b :: rest) = .ok (.lit b, rest) := by
  simp [decodeCode, h]

theorem decode_code {bytes left : List Byte} {i : Instr} (h : decodeCode bytes = .ok (i, left)) :
    decode (.code bytes) = .ok i := by
  simp [decode, h]

@[simp] theorem codeBytes_lit (v : Byte) : codeBytes (.lit v) = [v] := rfl
@[simp] theorem codeBytes_run (n : BitVec 6) (v : Byte) :
    codeBytes (.run n v) = [0xC0#8 ||| n.setWidth 8, v] := rfl

/-! ### Command words (R106, R107, R109) -/

theorem encodedShape (i : Instr) : EncodedShape.Statement i := by
  cases i with
  | lit v => exact EncodedShape.lit v
  | run n v => exact EncodedShape.run n v
  | nop => exact EncodedShape.nop
  | decode => exact EncodedShape.decode
  | probe => exact EncodedShape.probe
  | loadIndexed => exact EncodedShape.loadIndexed
  | loadTruecolor => exact EncodedShape.loadTruecolor
  | readIndex => exact EncodedShape.readIndex
  | readPalette => exact EncodedShape.readPalette
  | readPixels => exact EncodedShape.readPixels
  | clear => exact EncodedShape.clear
  | rleDecode => exact EncodedShape.rleDecode
  | rleEncode => exact EncodedShape.rleEncode
  | writePcx => exact EncodedShape.writePcx
  | writeIco => exact EncodedShape.writeIco
  | writeBmp => exact EncodedShape.writeBmp
  | writeBmpa => exact EncodedShape.writeBmpa

theorem wellFormed_of_encode_command {i : Instr} {w : Word} (h : encode i = .command w) : i.WellFormed := by
  cases i with
  | lit v => cases h
  | _ => rfl

theorem decodeCommand_of_encode {i : Instr} {w : Word} (h : encode i = .command w) :
    decodeCommand w = .ok i := by
  have hshape := encodedShape i (wellFormed_of_encode_command h)
  rw [h] at hshape
  exact hshape.2

theorem decodeCommand_of_mbz {w : Word} (h : 256 ≤ w.toNat) : decodeCommand w = .error .mustBeZero := by
  have hmbz : commandMbz w ≠ 0#24 := fun hz => absurd (commandMbz_eq_zero.mp hz) (by omega)
  simp [decodeCommand, hmbz]

theorem decodeCommand_of_some {w : Word} (h : w.toNat < 256) {i : Instr}
    (hop : decodeOpcode (commandOpcode w) = some i) : decodeCommand w = .ok i := by
  simp [decodeCommand, commandMbz_eq_zero.mpr h, hop]

theorem decodeCommand_of_none {w : Word} (h : w.toNat < 256) (hop : decodeOpcode (commandOpcode w) = none) :
    decodeCommand w = .error (.unknownOpcode (commandOpcode w)) := by
  simp [decodeCommand, commandMbz_eq_zero.mpr h, hop]

/-- Every row of R107's table is its instruction's own encoding. -/
theorem encode_of_opcodeTable : ∀ row ∈ opcodeTable, encode row.2 = .command (row.1.setWidth 32) := by decide

theorem encode_of_decodeOpcode {op : Byte} {i : Instr} (h : decodeOpcode op = some i) :
    encode i = .command (op.setWidth 32) := by
  obtain ⟨before, after, htable, -⟩ := List.lookup_eq_some_iff.mp h
  exact encode_of_opcodeTable (op, i) (by simp [htable])

theorem commandOpcode_setWidth {w : Word} (h : w.toNat < 256) : (commandOpcode w).setWidth 32 = w := by
  apply BitVec.eq_of_toNat_eq
  simp [commandOpcode, BitVec.extractLsb'_toNat]
  omega

/-- A word of one byte that is found in the table is the encoding of what it is found as. -/
theorem encode_of_commandOpcode {w : Word} (h : w.toNat < 256) {i : Instr}
    (hop : decodeOpcode (commandOpcode w) = some i) : encode i = .command w := by
  rw [encode_of_decodeOpcode hop, commandOpcode_setWidth h]

theorem decodeCommand_eq_ok {w : Word} {i : Instr} : decodeCommand w = .ok i ↔ encode i = .command w := by
  refine ⟨fun h => ?_, decodeCommand_of_encode⟩
  by_cases hw : w.toNat < 256
  · cases hop : decodeOpcode (commandOpcode w) with
    | none => rw [decodeCommand_of_none hw hop] at h; cases h
    | some j =>
      rw [decodeCommand_of_some hw hop] at h
      cases h
      exact encode_of_commandOpcode hw hop
  · rw [decodeCommand_of_mbz (by omega)] at h; cases h

/-! ### Encoding, then decoding -/

/-- A code's bytes are told from whatever follows them (R102). -/
theorem decodeCode_codeBytes {i : Instr} (hwf : i.WellFormed) (hcode : isCodeForm i) (rest : List Byte) :
    decodeCode (codeBytes i ++ rest) = .ok (i, rest) := by
  cases i with
  | lit v => exact decodeCode_of_not_marker (by simpa [Instr.WellFormed, Instr.wellFormed] using hwf) rest
  | run n v =>
    have h := decodeCode_of_marker (isMarker_runByte n) v rest
    rwa [runCount_runByte] at h
  | _ => exact absurd rfl hcode

theorem decode_encode {i : Instr} (hwf : i.WellFormed) : decode (encode i) = .ok i := by
  cases henc : encode i with
  | command w => exact decodeCommand_of_encode henc
  | code bytes =>
    have hbytes : codeBytes i = bytes := by simp [codeBytes, henc]
    have hcode : isCodeForm i := by
      cases i with
      | lit | run => simp
      | _ => cases henc
    have h := decodeCode_codeBytes hwf hcode []
    rw [List.append_nil, hbytes] at h
    exact decode_code h

/-! ### The encoder on copies of one byte (R113, spec/43_rle_encoder.md R262 to R264) -/

theorem runLength_replicate (v : Byte) (room m : Nat) :
    runLength v room (List.replicate m v) = min room m := by
  induction room generalizing m with
  | zero => simp [runLength]
  | succ room ih =>
    cases m with
    | zero => simp [runLength]
    | succ m => simp [List.replicate_succ, runLength, ih]

theorem encodeLoop_nil (fuel n c i : Nat) : encodeLoop fuel n c i [] = [] := by
  cases fuel <;> rfl

/-- With no chunk boundary before the end, a pass over copies of one byte takes 63 of them, or all that
are left. -/
theorem encodeLoop_replicate_succ {n c i m : Nat} (hn : i + (m + 1) = n) (hc : n ≤ c) (fuel : Nat) (v : Byte) :
    encodeLoop (fuel + 1) n c i (List.replicate (m + 1) v) =
      emitRun (min (m + 1) 63) v ++
        encodeLoop fuel n c (i + min (m + 1) 63) (List.replicate (m + 1 - min (m + 1) 63) v) := by
  have hi : i % c = i := Nat.mod_eq_of_lt (by omega)
  have hlen : min (min (n - i) (min 0x3F (c - i)) - 1) m + 1 = min (m + 1) 63 := by omega
  have hdrop : m - (min (m + 1) 63 - 1) = m + 1 - min (m + 1) 63 := by omega
  simp only [List.replicate_succ, encodeLoop, runLength_replicate, List.drop_replicate, hi, hlen, hdrop]

theorem codeBytes_run_of_le {r : Nat} (h : r ≤ 63) (v : Byte) :
    codeBytes (.run (BitVec.ofNat 6 r) v) = [0xC0#8 ||| BitVec.ofNat 8 r, v] := by
  have hcount : (BitVec.ofNat 6 r).setWidth 8 = BitVec.ofNat 8 r := by
    apply BitVec.eq_of_toNat_eq
    simp
    omega
  rw [codeBytes_run, hcount]

/-- `REP` of more than 63 copies begins with a full run. -/
theorem expandRep_add (k : Nat) (v : Byte) : expandRep (k + 63) v = .run 63#6 v :: expandRep k v := by
  simp [expandRep, List.replicate_succ]

/-- `REP` of a remainder is written by the escape rule (R263). -/
theorem expandRep_of_lt {r : Nat} (hpos : 0 < r) (h : r < 63) (v : Byte) :
    (expandRep r v).flatMap codeBytes = emitRun r v := by
  have hdiv : r / 63 = 0 := Nat.div_eq_of_lt h
  have hmod : r % 63 = r := Nat.mod_eq_of_lt h
  have hne : r ≠ 0 := by omega
  by_cases h3 : 3 ≤ r
  · have h2 : ¬ r ≤ 2 := by omega
    simp [expandRep, emitRun, hdiv, hmod, hne, h3, h2, codeBytes_run_of_le h.le, -codeBytes_run]
  · have h2 : r ≤ 2 := by omega
    cases hm : isMarker v with
    | false => simp [expandRep, emitRun, hdiv, hmod, hne, h3, h2, hm, List.flatMap_replicate]
    | true => simp [expandRep, emitRun, hdiv, hmod, hne, h3, h2, hm, codeBytes_run_of_le h.le, -codeBytes_run]

/-- What the encoder's loop gives for the `m` copies left of `n`, none of them past a chunk boundary. -/
theorem encodeLoop_replicate {n c : Nat} (hc : n ≤ c) (v : Byte) :
    ∀ (fuel m i : Nat), m ≤ fuel → i + m = n →
      encodeLoop fuel n c i (List.replicate m v) = (expandRep m v).flatMap codeBytes := by
  intro fuel
  induction fuel with
  | zero =>
    intro m i hm _
    obtain rfl : m = 0 := by omega
    rfl
  | succ fuel ih =>
    intro m i hm hn
    cases m with
    | zero => rfl
    | succ m =>
      rw [encodeLoop_replicate_succ hn hc]
      by_cases hlt : m + 1 < 63
      · rw [min_eq_left hlt.le, Nat.sub_self, List.replicate_zero, encodeLoop_nil, List.append_nil,
          expandRep_of_lt m.succ_pos hlt]
      · obtain ⟨k, hk⟩ : ∃ k, m + 1 = k + 63 := ⟨m + 1 - 63, by omega⟩
        rw [hk, min_eq_right (by omega), Nat.add_sub_cancel, ih k _ (by omega) (by omega), expandRep_add]
        rfl

theorem rleEncode_replicate {n c : Nat} (hc : n ≤ c) (v : Byte) :
    rleEncode (List.replicate n v) c = (expandRep n v).flatMap codeBytes := by
  rw [rleEncode, List.length_replicate]
  exact encodeLoop_replicate hc v n n 0 le_rfl (Nat.zero_add n)

theorem expandRep_one (v : Byte) : expandRep 1 v = [expandByte v] := by
  cases hm : isMarker v <;> simp [expandRep, expandByte, hm]

end Sys2Proof.Machine

namespace Sys2Proof.Proofs

open Sys2Proof Sys2Proof.Machine Host

/-- Settles O2: the marker bits of a RUN stand apart from its count, a LIT has none, and a command's word is
its row of the table. -/
theorem encodingRoundTrip : Obligations.EncodingRoundTrip := by
  unfold Obligations.EncodingRoundTrip
  exact fun i hwf => ⟨decode_encode hwf, fun hcode rest => decodeCode_codeBytes hwf hcode rest⟩

/-- Settles O3: the marker test is the bound 0xC0. -/
theorem codeFormFromFirstByte : Obligations.CodeFormFromFirstByte := by
  unfold Obligations.CodeFormFromFirstByte
  refine fun b rest => ⟨fun hlt => ?_, fun hge v => ⟨?_, ?_⟩⟩
  · have hb : isMarker b = false := Bool.eq_false_iff.mpr fun hm => absurd ((isMarker_iff b).mp hm) (by omega)
    exact decodeCode_of_not_marker hb rest
  · rw [decodeCode_of_marker ((isMarker_iff b).mpr hge), runCount_of_marker hge]
  · rw [encode, runByte_of_marker hge]

/-- Settles O4: an opcode found in the table is the word of its own instruction, so a word that is no
instruction's is not found. -/
theorem commandWordExactMatch : Obligations.CommandWordExactMatch := by
  unfold Obligations.CommandWordExactMatch
  refine fun w => ⟨decodeCommand_of_mbz, fun i => decodeCommand_eq_ok, fun hw hnone => ?_⟩
  refine decodeCommand_of_none hw (Option.eq_none_iff_forall_ne_some.mpr fun i hop => ?_)
  exact hnone i (encode_of_commandOpcode hw hop)

/-- Settles O5: the encoder takes full runs of 63 and then the remainder, as `REP` is spelt; `BYTE` is `REP` of
one copy. -/
theorem repIsTheEncoding : Obligations.RepIsTheEncoding := by
  unfold Obligations.RepIsTheEncoding
  intro n c v hn hc
  have hbyte : rleEncode [v] c = (expandRep 1 v).flatMap codeBytes := rleEncode_replicate (hn.trans hc) v
  refine ⟨(rleEncode_replicate hc v).symm, ?_⟩
  rw [hbyte, expandRep_one]
  simp

/-- Settles O1: each word is run through the decoder. -/
theorem sampleWordsDecode : Obligations.SampleWordsDecode := by
  unfold Obligations.SampleWordsDecode
  exact ⟨rfl, rfl, rfl, rfl, rfl, rfl, rfl, rfl, rfl, rfl⟩

end Sys2Proof.Proofs
end

section
/-! PROOFS. The header (spec/40_header.md R143 to R153): its fields from the stream's bytes, its checks in their
order, and how DECODE and PROBE end at it. -/

namespace Sys2Proof.Machine

open Host

/-! ### Fields (R143) -/

theorem le16_toNat (b₀ b₁ : Byte) : (le16 b₀ b₁).toNat = b₀.toNat + 256 * b₁.toNat := by
  have h₀ : b₀.toNat < 2 ^ 8 := b₀.isLt
  rw [le16, BitVec.toNat_append, ← Nat.shiftLeft_add_eq_or_of_lt h₀, Nat.shiftLeft_eq]
  omega

theorem byteAt_take {bs : List Byte} {n k : Nat} (h : k < n) : byteAt (bs.take n) k = byteAt bs k := by
  simp [byteAt, List.getElem?_take_of_lt h]

theorem byteAt_drop (bs : List Byte) (n k : Nat) : byteAt (bs.drop n) k = byteAt bs (n + k) := by
  simp [byteAt]

theorem rgbTriples_getElem? (bs : List Byte) {n i : Nat} (h : i < n) :
    (rgbTriples bs n)[i]? = some ⟨byteAt bs (3 * i), byteAt bs (3 * i + 1), byteAt bs (3 * i + 2)⟩ := by
  simp [rgbTriples, h]

/-- The fallback table stands at offset 16 (R144). -/
theorem parseHeader_fb (bs : List Byte) {i : Nat} (h : i < 16) :
    (parseHeader (bs.take 68)).fb[i]? =
      some ⟨byteAt bs (16 + 3 * i), byteAt bs (17 + 3 * i), byteAt bs (18 + 3 * i)⟩ := by
  have hb : ∀ k, k < 3 → byteAt ((bs.take 68).drop 16) (3 * i + k) = byteAt bs (16 + k + 3 * i) := fun k hk => by
    rw [byteAt_drop, byteAt_take (by omega)]
    congr 1
    omega
  exact (rgbTriples_getElem? _ h).trans (by rw [← hb 0 (by omega), ← hb 1 (by omega), ← hb 2 (by omega)]; rfl)

/-- RES2 without flags (spec/10_state.md R52). -/
theorem headerResults_toWord (info : HeaderInfo) :
    (headerResults info false).toWord = 0#8 ++ info.hdr.planes ++ info.hdr.bpl := by
  have hflags : (0#5 ++ bit false ++ bit false ++ bit false : BitVec 8) = 0#8 := by decide
  show (0#5 ++ bit false ++ bit false ++ bit false : BitVec 8) ++ info.hdr.planes ++ info.hdr.bpl = _
  rw [hflags]

/-! ### The checks (R148 to R150) -/

/-- What the Header Reader passes on of a header it accepts (R153). -/
def Header.info (h : Header) : HeaderInfo := ⟨h, h.width.toNat, h.height.toNat⟩

section Checks
variable {cfg : Config} {hdr : Header} {e : CmdError} {p : Ports}

/-- One check as the first row of a list of checks: where it fails, its error stands and no later check runs. -/
theorem require_andThen_eq {α : Type} {c : Bool} {P : Prop} [Decidable P] {o : Option CmdError} {r : Reply α}
    {k : Unit → Ports → Reply α} (hc : c = true ↔ ¬ P) (hk : k () p = o.elim r fun e => .error e p) :
    (require c e p).andThen k = (if P then some e else o).elim r fun e => .error e p := by
  by_cases hP : P
  · rw [require_false (Bool.eq_false_iff.mpr fun ht => hc.mp ht hP), if_pos hP]
    rfl
  · rw [require_true (hc.mpr hP), if_neg hP]
    exact hk

/-- The Header Reader runs the checks in the order of `headerError`; where none fails, the bound on the height
is left (log 14). -/
theorem checkHeader_eq (cfg : Config) (hdr : Header) (p : Ports) :
    checkHeader cfg hdr p = (headerError cfg hdr).elim
      ((requireHeight hdr.height.toNat p).andThen fun _ p => .ok hdr.info p)
      fun e => .error e p :=
  require_andThen_eq (by simp) <|
  require_andThen_eq (by simp; tauto) <|
  require_andThen_eq (by simp) <|
  require_andThen_eq (by simp) <|
  require_andThen_eq (by simp) rfl

/-- A header passes all checks with a height in R16's range exactly when none of R148 and R149 fails. -/
theorem accepted_iff : hdr.Accepted cfg ↔ headerError cfg hdr = none ∧ hdr.height ≤ 65535 := by
  unfold headerError Header.Accepted
  split_ifs with hbpp hplanes harea hbpl hlarge
  · simp [hbpp]
  · simp [hplanes]
  · simp; omega
  · simp; omega
  · simp; omega
  · have hp : hdr.planes = 1#8 ∨ hdr.planes = 3#8 := by tauto
    have hb : hdr.bpp = 8#8 := not_not.mp hbpp
    simp only [hb, hp, true_and]
    omega

/-! ### The Header Reader (R146) -/

theorem headerRead_of_short (ha : p.Answering) (hn : p.input.length < 68) :
    headerRead cfg p = .error .shortHeader (advance p.input.length p.answered) := by
  rw [headerRead, readExact_of_short ha hn, andThen_ok]

theorem headerRead_of_enough (ha : p.Answering) (hn : 68 ≤ p.input.length) :
    headerRead cfg p = checkHeader cfg (parseHeader (p.input.take 68)) (advance 68 p.answered) := by
  rw [headerRead, readExact_of_enough ha hn, andThen_ok]

theorem headerRead_of_headerError (ha : p.Answering) (hn : 68 ≤ p.input.length)
    (he : headerError cfg (parseHeader (p.input.take 68)) = some e) :
    headerRead cfg p = .error e (advance 68 p.answered) := by
  rw [headerRead_of_enough ha hn, checkHeader_eq, he, Option.elim_some]

/-- A header too tall for IMG_HEIGHT (log 14). -/
theorem headerRead_of_tall (ha : p.Answering) (hn : 68 ≤ p.input.length) (hh : parseHeader (p.input.take 68) = hdr)
    (hpass : headerError cfg hdr = none) (htall : 65535 < hdr.height) :
    headerRead cfg p = .error .tooLarge (advance 68 p.answered) := by
  rw [headerRead_of_enough ha hn, hh, checkHeader_eq, hpass, Option.elim_none, requireHeight_of_gt (by omega),
    andThen_error]

theorem headerRead_of_answering (ha : p.Answering) (hn : 68 ≤ p.input.length)
    (hh : parseHeader (p.input.take 68) = hdr) (hacc : hdr.Accepted cfg) :
    headerRead cfg p = .ok hdr.info (advance 68 p.answered) := by
  obtain ⟨hpass, hheight⟩ := accepted_iff.mp hacc
  rw [headerRead_of_enough ha hn, hh, checkHeader_eq, hpass, Option.elim_none, requireHeight_of_le (by omega),
    andThen_ok]

end Checks

/-! ### The geometry of an accepted header (R147, R153) -/

section Accepted
variable {cfg : Config} {hdr : Header}

theorem Header.info_w (h : hdr.Accepted cfg) : (hdr.info.w : Int) = hdr.width := by
  obtain ⟨-, -, hw, -⟩ := h
  exact Int.toNat_of_nonneg (by omega)

theorem Header.info_h (h : hdr.Accepted cfg) : (hdr.info.h : Int) = hdr.height := by
  obtain ⟨-, -, -, hh, -⟩ := h
  exact Int.toNat_of_nonneg (by omega)

theorem geometryOk_of_accepted (h : hdr.Accepted cfg) : geometryOk cfg hdr.info.w hdr.info.h hdr.bpl.toNat := by
  have hw := Header.info_w h
  have hh := Header.info_h h
  obtain ⟨-, -, hw1, hh1, hbpl, hlarge, htall⟩ := h
  rw [← hw, ← hh] at hlarge
  exact ⟨by omega, by omega, by omega, by exact_mod_cast hlarge, by omega⟩

end Accepted

/-! ### The degenerate Image (R152) -/

section Degenerate
variable {cfg : Config} {info : HeaderInfo}

theorem degenerateImage_size (h : geometryOk cfg info.w info.h info.hdr.bpl.toNat) :
    (degenerateImage info).w = info.w ∧ (degenerateImage info).h = info.h :=
  have ⟨hw, hh, _⟩ := stagedImage_geometry h
  ⟨hw, hh⟩

/-- Every sentinel index is opaque black: the fallback table ends before it (R152, R224). -/
theorem lookup_fallbackPalette_sentinel (fb : List Rgb) : lookup (fallbackPalette fb) 0xFF#8 = black := by
  have hcons : List.range 256 = 0 :: (List.range 255).map (· + 1) := List.range_succ_eq_map
  show (fallbackPalette fb).getD 255 Sample.zero = black
  simp only [fallbackPalette, hcons, List.map_cons, forceAlpha, List.getD_cons_succ]
  cases hfb : fb[255]? <;> simp [hfb, black]

theorem degenerateImage_pix (info : HeaderInfo) :
    (degenerateImage info).pix = List.replicate (info.w * info.h) black := by
  show depalettize (fallbackPalette info.hdr.fb) (List.replicate (info.w * info.h) 0xFF#8) = _
  rw [depalettize, List.map_replicate, lookup_fallbackPalette_sentinel]

end Degenerate

/-! ### The commands -/

section Commands
variable {s : State} {i : Instr} {e : CmdError} {q : Ports}

theorem exec_decode_of_ready (hready : s.Ready) : exec .decode s = wholeCommand (beginDecode (prologue s)) :=
  runCommand_of_ready hready fun s => wholeCommand (beginDecode s)

/-- DECODE and PROBE end with the error of their header's reading, and keep all else (R410). -/
theorem ended_of_headerRead_error (hi : i = .decode ∨ i = .probe) (hready : s.Ready)
    (hread : headerRead s.cfg (prologue s).ports = .error e q) (hout : q.output = []) :
    ∃ t, exec i s = .next t ∧ Ended t (Status.failure e) q.cursor [] ∧ KeepsAll s t := by
  refine ended_of_error (q := q) (keepsAll_prologue s) ?_ rfl hout
  obtain rfl | rfl := hi
  · have hbegin : beginDecode (prologue s) = .next (endCommand (Status.failure e) q (prologue s)) := by
      rw [beginDecode, prologue_cfg, hread]
      rfl
    rw [exec_decode_of_ready hready, hbegin]
    exact bodyLoop_of_no_body (by simp)
  · rw [exec_probe_of_ready hready, hread, conclude_error]

/-- A header that is read and not accepted consumes its 68 bytes (R150). -/
theorem ended_of_header_refused (hi : i = .decode ∨ i = .probe) (hready : s.Ready)
    (hread : headerRead s.cfg (prologue s).ports = .error e (advance 68 (prologue s).ports.answered)) :
    ∃ t, exec i s = .next t ∧ Ended t (Status.failure e) 68 [] ∧ KeepsAll s t :=
  ended_of_headerRead_error hi hready hread rfl

/-- PROBE of an accepted header (spec/45_commands.md R355). -/
theorem exec_probe_of_accepted (hready : s.Ready) (hports : s.PortsAnswer) (hn : 68 ≤ s.ports.input.length)
    (hacc : (streamHeader s).Accepted s.cfg) :
    exec .probe s = .next (endCommand Status.success (advance 68 (prologue s).ports.answered)
      (setResults (streamHeader s).info.w (streamHeader s).info.h (headerResults (streamHeader s).info false)
        (prologue s))) := by
  rw [exec_probe_of_ready hready, headerRead_of_answering (p := (prologue s).ports) hports hn rfl hacc, conclude_ok]
  rfl

/-- DECODE of an accepted header whose tail is cut (R151, R152). -/
theorem exec_decode_of_degenerate (hready : s.Ready) (hports : s.PortsAnswer) (hn : 68 ≤ s.ports.input.length)
    (hshort : s.ports.input.length < 128) (hacc : (streamHeader s).Accepted s.cfg) :
    ∃ p, p.cursor = s.ports.input.length ∧ p.output = [] ∧
      exec .decode s = .next (endCommand Status.success p
        (setResults (streamHeader s).info.w (streamHeader s).info.h (headerResults (streamHeader s).info true)
          (commitImage (degenerateImage (streamHeader s).info) { prologue s with hdr := streamHeader s }))) := by
  obtain ⟨p, hskip, hcursor, hout⟩ : ∃ p, skip 60 (advance 68 (prologue s).ports.answered) = .ok true p ∧
      p.cursor = s.ports.input.length ∧ p.output = [] :=
    ⟨_, skip_of_short (answered_answering hports) (by simp; omega), by simp; omega, rfl⟩
  have hread : headerRead (prologue s).cfg (prologue s).ports =
      .ok (streamHeader s).info (advance 68 (prologue s).ports.answered) :=
    headerRead_of_answering hports hn rfl hacc
  refine ⟨p, hcursor, hout, ?_⟩
  simp only [exec_decode_of_ready hready, beginDecode, hread, decodeTail, hskip, conclude_ok]
  exact bodyLoop_of_no_body (by simp)

end Commands

end Sys2Proof.Machine

namespace Sys2Proof.Proofs

open Sys2Proof Sys2Proof.Machine Host

/-- Settles O16: the Header Reader gets no 68 bytes and consumes what there is. -/
theorem shortHeaderAlwaysFails : Obligations.ShortHeaderAlwaysFails := by
  unfold Obligations.ShortHeaderAlwaysFails
  intro s i hi hready hports hshort
  obtain ⟨t, ht, hended, hkeeps⟩ := ended_of_headerRead_error hi hready
    (headerRead_of_short (p := (prologue s).ports) hports hshort) rfl
  rw [advance_cursor, answered_cursor, prologue_ports, startPorts_cursor, Nat.zero_add] at hended
  exact ⟨t, ht, hended, by rw [hended.1]; rfl, hkeeps⟩

/-- Settles O17: the Header Reader's checks are those of `headerError`, in its order. -/
theorem headerChecksInOrder : Obligations.HeaderChecksInOrder := by
  unfold Obligations.HeaderChecksInOrder
  intro s i e hi hready hports hn he
  exact ended_of_header_refused hi hready (headerRead_of_headerError (p := (prologue s).ports) hports hn he)

/-- Settles O15: the fields are read at their offsets, PROBE reports them, and the bound on the height is the one
check that `headerError` lacks. -/
theorem probeReportsGeometry : Obligations.ProbeReportsGeometry := by
  unfold Obligations.ProbeReportsGeometry
  refine ⟨fun s h b _ hh hb => ?_, fun s hready hports hn => ⟨fun hacc => ?_, accepted_iff, ?_⟩⟩
  · have hbyte : ∀ {k}, k < 68 → byteAt (s.ports.input.take 68) k = b k := fun hk => by
      rw [byteAt_take hk, hb]
      rfl
    subst hh
    refine ⟨hbyte (by omega), hbyte (by omega), ?_, ?_, ?_, ?_, ?_, by simp [streamHeader, parseHeader, rgbTriples],
      fun i hi => ?_, rfl, rfl⟩
    iterate 5
      rw [← hbyte (by omega), ← hbyte (by omega)]
      exact le16_toNat _ _
    · subst hb
      exact parseHeader_fb _ hi
  · refine ⟨_, exec_probe_of_accepted hready hports hn hacc, endCommand_ended _ _ _, ?_, ?_, ?_, ?_, ?_⟩
    · simp [← Header.info_w hacc]
    · simp [← Header.info_h hacc]
    · exact headerResults_toWord _
    · simp
    · simp [KeepsOperands]
  · intro hpass htall i hi
    exact ended_of_header_refused hi hready (headerRead_of_tall (p := (prologue s).ports) hports hn rfl hpass htall)

/-- Settles O18: the tail is cut, so the Image of sentinel indices is committed. -/
theorem decodeDegenerateImage : Obligations.DecodeDegenerateImage := by
  unfold Obligations.DecodeDegenerateImage
  intro s hready hports hn hshort hacc
  obtain ⟨p, hcursor, hout, hexec⟩ := exec_decode_of_degenerate hready hports hn hshort hacc
  have hgeo := geometryOk_of_accepted hacc
  obtain ⟨hw, hh⟩ := degenerateImage_size (info := (streamHeader s).info) hgeo
  have himage := commitImage_image_of_indexed (degenerateImage (streamHeader s).info)
    { prologue s with hdr := streamHeader s } rfl
  obtain ⟨-, -, hwb, -, hh16⟩ := hgeo
  have hb := (streamHeader s).bpl.isLt
  refine ⟨_, hexec, ?_, ?_⟩
  · rw [← hcursor, ← hout]
    exact endCommand_ended _ _ _
  · simp only [endCommand_image, setResults_image, himage, hw, hh, degenerateImage_pix]
    refine ⟨rfl, Header.info_w hacc, Header.info_h hacc, rfl, rfl, rfl, rfl, ?_, ?_, rfl, by simp [KeepsOperands]⟩
    · exact (BitVec.toNat_ofNat _ _).trans (Nat.mod_eq_of_lt (by omega))
    · exact (BitVec.toNat_ofNat _ _).trans (Nat.mod_eq_of_lt (by omega))

end Sys2Proof.Proofs
end

section
/-! PROOFS. The code forms of a running body (spec/41_rle_decoder.md R180, R181, R183, R187): the fetch of one code
against `decodeCode`, what LIT and RUN write, and where code forms and commands stop. -/

namespace Sys2Proof.Machine

open Host

/-! ### The fetch of one code (R183) -/

/-- A code that decodes is one byte that is no marker, or a marker and its value byte. -/
theorem decodeCode_eq_ok {bytes left : List Byte} {i : Instr} :
    decodeCode bytes = .ok (i, left) ↔
      (∃ b, bytes = b :: left ∧ isMarker b = false ∧ i = .lit b) ∨
      (∃ b v, bytes = b :: v :: left ∧ isMarker b = true ∧ i = .run (b.extractLsb' 0 6) v) := by
  constructor
  · intro h
    match bytes with
    | [] => cases h
    | b :: rest =>
      cases hb : isMarker b with
      | false =>
        rw [decodeCode_of_not_marker hb] at h
        cases h
        exact .inl ⟨b, rfl, hb, rfl⟩
      | true =>
        match rest with
        | [] => simp [decodeCode, hb] at h
        | v :: rest =>
          rw [decodeCode_of_marker hb] at h
          cases h
          exact .inr ⟨b, v, rfl, hb, rfl⟩
  · rintro (⟨b, rfl, hb, rfl⟩ | ⟨b, v, rfl, hb, rfl⟩)
    · exact decodeCode_of_not_marker hb left
    · exact decodeCode_of_marker hb v left

/-- The ports after a code's bytes, up to `left`, were read. -/
def Ports.consumedTo (left : List Byte) (p : Ports) : Ports :=
  { p with input := left, cursor := p.cursor + (p.input.length - left.length) }

theorem consumedTo_of_one {p : Ports} {b : Byte} {left : List Byte} (hp : p.input = b :: left) :
    p.consumedTo left = { p with input := left, cursor := p.cursor + 1 } := by
  have hlen : p.input.length - left.length = 1 := by rw [hp, List.length_cons]; omega
  rw [Ports.consumedTo, hlen]

theorem consumedTo_of_two {p : Ports} {b v : Byte} {left : List Byte} (hp : p.input = b :: v :: left) :
    p.consumedTo left = { p with input := left, cursor := p.cursor + 2 } := by
  have hlen : p.input.length - left.length = 2 := by rw [hp, List.length_cons, List.length_cons]; omega
  rw [Ports.consumedTo, hlen]

/-- The core fetches the code that `decodeCode` reads from the input. -/
theorem fetchCode_of_decodeCode {p : Ports} {i : Instr} {left : List Byte} (hd : p.draws = [])
    (h : decodeCode p.input = .ok (i, left)) : fetchCode p = .ok (some i) (p.consumedTo left) := by
  have ha : p.Answering := by simp [Ports.Answering, hd]
  obtain ⟨b, hp, hb, rfl⟩ | ⟨b, v, hp, hb, rfl⟩ := decodeCode_eq_ok.mp h
  · rw [fetchCode_lit ha hp hb, consumedTo_of_one hp]
    simp [Ports.answered, hd]
  · rw [fetchCode_run ha hp hb, consumedTo_of_two hp]
    simp [Ports.answered, hd]

/-- What a code step makes of the outcome of its code (R184). -/
def afterRun : Outcome State Fault Refusal → Outcome State Fault Refusal
  | .next t => afterCode t
  | .fault why => .fault why
  | .refused why => .refused why

@[simp] theorem afterRun_next (t : State) : afterRun (.next t) = afterCode t := rfl

/-- One code granted to a running body, when it decodes: its bytes are consumed, it runs, and the engine goes on to
its next boundary (log 9). -/
theorem step_of_grant_code {s : State} {e : Engine} {i : Instr} {left : List Byte} {rest : List HostOp}
    (hs : s.phase = .body e) (hhost : s.host = .grant .code :: rest) (hd : s.ports.draws = [])
    (hcode : decodeCode s.ports.input = .ok (i, left)) :
    step s = afterRun (exec i { s with host := rest, ports := s.ports.consumedTo left }) := by
  have hmove : step s = codeStep exec { s with host := rest } := by
    simp [step, agentsMove, hhost, hostMove, coreMove, hs]
  rw [hmove]
  simp only [codeStep, hs, fetchCode_of_decodeCode hd hcode]
  rfl

/-! ### What a code form writes (R180, R181) -/

/-- What stands in LINE after `k` copies of `v` from position `x` on. -/
def copiesAt (buf : List Byte) (x k : Nat) (v : Byte) : List Byte :=
  buf.take x ++ List.replicate k v ++ buf.drop (x + k)

section Copies
variable {buf : List Byte} {x k : Nat} {v : Byte}

/-- The copies are a buffer write inside LINE. -/
theorem memWrite_copiesAt (h : x + k ≤ buf.length) :
    memWrite buf.length buf x (List.replicate k v) = some (copiesAt buf x k v) :=
  memWrite_eq_some.mpr ⟨by simpa using h, by omega, by simp [copiesAt]⟩

theorem copiesAt_length (h : x + k ≤ buf.length) : (copiesAt buf x k v).length = buf.length := by
  have hlen := memWrite_length (memWrite_copiesAt (v := v) h)
  rwa [List.length_replicate, max_eq_left h] at hlen

theorem copiesAt_getElem?_copied (h : x + k ≤ buf.length) {j : Nat} (hx : x ≤ j) (hk : j < x + k) :
    (copiesAt buf x k v)[j]? = some v := by
  obtain ⟨i, rfl⟩ := Nat.exists_eq_add_of_le hx
  have hi : i < k := by omega
  rw [memWrite_getElem?_same (memWrite_copiesAt h) (by simpa using hi), List.getElem?_replicate_of_lt hi]

theorem copiesAt_getElem?_other (h : x + k ≤ buf.length) {j : Nat} (hj : j < x ∨ x + k ≤ j) :
    (copiesAt buf x k v)[j]? = buf[j]? :=
  memWrite_getElem?_other (memWrite_copiesAt h) (by simpa using hj)

@[simp] theorem copiesAt_zero (buf : List Byte) (x : Nat) (v : Byte) : copiesAt buf x 0 v = buf := by
  simp [copiesAt]

theorem copiesAt_one (h : x < buf.length) : copiesAt buf x 1 v = buf.set x v := by
  simp [copiesAt, List.set_eq_take_append_cons_drop, h]

end Copies

/-- `execCode_in_body` in terms of `copiesAt`. -/
theorem execCode_copies {n : Nat} {v : Byte} {s : State} {e : Engine} (hs : s.phase = .body e) (hx : e.x ≤ e.lineLen)
    (hb : e.lineLen ≤ lineBound) (hl : s.line.length = e.lineLen) :
    execCode n v s = .next { s with
      phase := .body { e with
        x := e.x + min n (e.lineLen - e.x), rem := n - min n (e.lineLen - e.x), val := v }
      line := copiesAt s.line e.x (min n (e.lineLen - e.x)) v } :=
  execCode_in_body hs hx hb hl

/-- At a code boundary a run of no copies changes `val` only (R187). -/
theorem exec_zeroRun_of_atCode {v : Byte} {s : State} {e : Engine} (hs : s.phase = .body e)
    (hb : e.lineLen ≤ lineBound) (hat : e.AtCode s.line) :
    exec (.run 0#6 v) s = .next { s with phase := .body { e with val := v } } := by
  obtain ⟨hx, hrem, -, hl⟩ := hat
  calc exec (.run 0#6 v) s = execCode 0 v s := rfl
    _ = _ := by simp [execCode_copies hs hx.le hb hl, hrem]

/-- An engine that stands at a code boundary already stays there. -/
theorem afterCode_of_atCode {s : State} {e : Engine} (hs : s.phase = .body e) (hy : e.y < e.lines)
    (hat : e.AtCode s.line) : afterCode s = .next s := by
  obtain ⟨hx, -, hrun, -⟩ := hat
  have hsettle := settle_at_boundary s.cfg (Nat.sub_ne_zero_of_lt hy) s.line s.ports hx hrun
  simp only [afterCode, hs, hsettle, continueBody, hy, if_true]
  rw [← hs]

/-! ### Where the two levels stop -/

/-- A command does not begin while another is in its body or waits for a silent port (log 30). -/
theorem exec_of_not_ready {i : Instr} {s : State} (hcode : ¬ isCodeForm i) (h : ¬ s.Ready) :
    exec i s = .fault .cmdWhileBusy := by
  obtain ⟨body, hexec, -⟩ := exec_ignoresScratch hcode
  rw [hexec, runCommand_of_not_ready h]

end Sys2Proof.Machine

namespace Sys2Proof.Proofs

open Sys2Proof Sys2Proof.Machine Host

/-- Settles O9: with a position left, one copy is written there and the run is over. -/
theorem litWritesOneCopy : Obligations.LitWritesOneCopy := by
  unfold Obligations.LitWritesOneCopy
  intro s e v hs hx hb hl
  have hone : min 1 (e.lineLen - e.x) = 1 := by omega
  calc exec (.lit v) s = execCode 1 v s := rfl
    _ = _ := by rw [execCode_copies hs hx.le hb hl, hone, copiesAt_one (by omega)]

/-- Settles O10: the new LINE is the old one with the copies in it. -/
theorem runWritesCopies : Obligations.RunWritesCopies := by
  unfold Obligations.RunWritesCopies
  intro s e n v hs hx hb hl
  have hfits : e.x + min n.toNat (e.lineLen - e.x) ≤ s.line.length := by omega
  exact ⟨_, execCode_copies hs hx.le hb hl, (copiesAt_length hfits).trans hl,
    fun _ hge hlt => copiesAt_getElem?_copied hfits hge hlt, fun _ hj => copiesAt_getElem?_other hfits hj⟩

/-- Settles O7: a granted code step fetches what `decodeCode` reads. -/
theorem stepRunsFetchedCode : Obligations.StepRunsFetchedCode := by
  unfold Obligations.StepRunsFetchedCode
  intro s e i left rest hs hhost hd hcode
  exact step_of_grant_code hs hhost hd hcode

/-- Settles O11: the run of no copies leaves the engine at the code boundary where the invariant has it. -/
theorem zeroRunIsTwoByteNop : Obligations.ZeroRunIsTwoByteNop := by
  unfold Obligations.ZeroRunIsTwoByteNop
  intro s e v left rest hinv hs hhost hd hin
  obtain ⟨-, -, -, -, -, hphase⟩ := hinv
  obtain ⟨⟨hb, -⟩, -, hy, hat⟩ := engineOk_iff.mp (hphase e (by simp [hs, Phase.engine]))
  have hcode : decodeCode s.ports.input = .ok (.run 0#6 v, left) := by rw [hin]; rfl
  rw [step_of_grant_code hs hhost hd hcode, consumedTo_of_two hin,
    exec_zeroRun_of_atCode (by exact hs) hb (by exact hat), afterRun_next]
  exact afterCode_of_atCode rfl hy hat

/-- Settles O12: code forms ask for a running body, commands for a core that is ready. -/
theorem levelsDoNotMix : Obligations.LevelsDoNotMix := by
  unfold Obligations.LevelsDoNotMix
  exact ⟨fun _ _ _ hno => ⟨execCode_no_body hno, execCode_no_body hno⟩, fun _ _ => exec_of_not_ready⟩

end Sys2Proof.Proofs
end

section
/-! PROOFS. The alpha of the palettes (spec/42_palette_pixels.md R224, R225). -/

namespace Sys2Proof.Machine

open Host

/-! ### Entries -/

/-- R225 entry by entry. -/
theorem forceAlpha_getElem? (pal : List Sample) (i : Nat) :
    (forceAlpha pal)[i]? = pal[i]?.map fun p => { p with a := if i = 0 then 0#8 else 255#8 } := by
  cases pal with
  | nil => simp [forceAlpha]
  | cons p rest => cases i <;> simp [forceAlpha]

section Fallback
variable {fb : List Rgb} {i : Nat}

/-- An entry that copies the header's table. -/
theorem fallbackPalette_getElem?_of_lt {c : Rgb} (hi : i < 16) (hc : fb[i]? = some c) :
    (fallbackPalette fb)[i]? = some ⟨c.r, c.g, c.b, if i = 0 then 0#8 else 255#8⟩ := by
  rw [fallbackPalette, forceAlpha_getElem?, List.getElem?_map, List.getElem?_range (by omega)]
  simp [hc, hi]

/-- An entry past the table. -/
theorem fallbackPalette_getElem?_of_ge (h16 : 16 ≤ i) (hi : i < 256) : (fallbackPalette fb)[i]? = some black := by
  rw [fallbackPalette, forceAlpha_getElem?, List.getElem?_map, List.getElem?_range hi]
  have hne : i ≠ 0 := by omega
  cases hc : fb[i]? <;> simp [hc, black, hne, Nat.not_lt.mpr h16]

end Fallback

/-! ### The Images that instructions build -/

/-- Where the Image is INDEXED its palette has R225's alphas. -/
def Image.PaletteForced (img : Image) : Prop := img.repr = .indexed → img.pal.length = 256 ∧ alphaForced img.pal

/-- The Image is still `img`, or its palette was forced. -/
def KeptOrForced (img : Image) (t : State) : Prop := t.image = img ∨ t.image.PaletteForced

section Built
variable {img : Image} {s t : State}

theorem paletteForced_of_not_indexed (h : img.repr ≠ .indexed) : img.PaletteForced := fun hi => absurd hi h

theorem paletteForced_commit (h : img.PaletteForced) : (commitImage img s).image.PaletteForced := by
  intro hi
  have hr : img.repr = .indexed := by simpa using hi
  rw [commitImage_image_of_indexed img s hr]
  exact h hr

theorem degenerateImage_paletteForced (info : HeaderInfo) : (degenerateImage info).PaletteForced :=
  fun _ => ⟨fallbackPalette_length _, fallbackPalette_alphaForced _⟩

theorem clearedImage_repr (ix : Draw) (img : Image) : (clearedImage ix img).repr = .absent := by
  unfold clearedImage
  split
  · assumption
  · rfl

theorem failsInto_keptOrForced (h : KeptOrForced img s) : FailsInto s (KeptOrForced img) :=
  ⟨fun _ _ => h, fun _ => h⟩

/-- A body's end commits only a TRUECOLOR Image or one with a palette of the Palette Resolver. -/
theorem yields_continueBody_keptOrForced {r : Reply (Engine × List Byte)} (h : KeptOrForced img s) :
    Yields (continueBody s r) (KeptOrForced img) := by
  have hfail := failsInto_keptOrForced h
  refine yields_continueBody hfail (fun _ _ _ _ _ => h) fun e _ p _ _ => ?_
  refine yields_finishBody hfail (fun _ => h) (fun _ => .inr ?_) fun _ r q hpal => .inr ?_
  · exact paletteForced_commit (paletteForced_of_not_indexed nofun)
  · exact paletteForced_commit fun _ => resolvePalette_ok hpal

theorem yields_codeStep_keptOrForced (h : KeptOrForced img s) {e : Engine} (he : s.phase = .body e) :
    Yields (codeStep runCode s) (KeptOrForced img) :=
  yields_codeStep runsCodes_runCode he (failsInto_keptOrForced h) fun _ _ _ _ _ =>
    yields_continueBody_keptOrForced h

theorem yields_beginDecode_keptOrForced (h : KeptOrForced img s) : Yields (beginDecode s) (KeptOrForced img) :=
  yields_beginDecode (failsInto_keptOrForced h) (fun _ _ _ => failsInto_keptOrForced h)
    (fun info _ _ _ => .inr (paletteForced_commit (degenerateImage_paletteForced info)))
    fun _ _ _ _ => yields_continueBody_keptOrForced h

theorem yields_execDecode_keptOrForced : Yields (execDecode s) (KeptOrForced s.image) :=
  yields_runCommand fun _ => yields_wholeCommand (fun _ _ h he => yields_codeStep_keptOrForced h he)
    (yields_beginDecode_keptOrForced (.inl rfl))

/-- A command whose effect leaves a forced palette. -/
theorem yields_concludeCommand_keptOrForced {α : Type} {r : State → Reply α}
    {effect : State → α → State → State} (h : ∀ s a u, (effect s a u).image.PaletteForced) :
    Yields (runCommand s fun s => conclude s (r s) (effect s)) (KeptOrForced s.image) :=
  yields_runCommand fun _ => yields_conclude (failsInto_keptOrForced (.inl rfl)) fun a _ _ => .inr (h _ a _)

theorem yields_execLoadIndexed_keptOrForced : Yields (execLoadIndexed s) (KeptOrForced s.image) :=
  yields_concludeCommand_keptOrForced fun _ r _ => paletteForced_commit fun _ =>
    ⟨paletteOfBytes_length r.1, paletteOfBytes_alphaForced r.1⟩

theorem yields_execLoadTruecolor_keptOrForced : Yields (execLoadTruecolor s) (KeptOrForced s.image) :=
  yields_concludeCommand_keptOrForced fun _ _ _ => paletteForced_commit (paletteForced_of_not_indexed nofun)

theorem yields_execClear_keptOrForced : Yields (execClear s) (KeptOrForced s.image) :=
  yields_concludeCommand_keptOrForced fun _ _ _ => paletteForced_of_not_indexed (by simp [clearedImage_repr])

/-- An instruction that replaces the Image is one of the four builders; what each leaves has a forced palette. -/
theorem exec_paletteForced {i : Instr} (hexec : exec i s = .next t) (hne : t.image ≠ s.image) :
    t.image.PaletteForced := by
  obtain ⟨-, himage, -⟩ := yields_exec_effects i s t hexec
  obtain ⟨hbuilder, -⟩ := himage.resolve_left hne
  simp only [List.mem_cons, List.not_mem_nil, or_false] at hbuilder
  refine Or.resolve_left (a := t.image = s.image) ?_ hne
  obtain rfl | rfl | rfl | rfl := hbuilder
  · exact yields_execDecode_keptOrForced t hexec
  · exact yields_execLoadIndexed_keptOrForced t hexec
  · exact yields_execLoadTruecolor_keptOrForced t hexec
  · exact yields_execClear_keptOrForced t hexec

end Built

end Sys2Proof.Machine

namespace Sys2Proof.Proofs

open Sys2Proof Sys2Proof.Machine Host

/-- Settles O22: entry by entry, and then over the four instructions that build or remove an Image. -/
theorem alphaForcing : Obligations.AlphaForcing := by
  unfold Obligations.AlphaForcing
  refine ⟨fun pal i p hp => ⟨?_, forceAlpha_length pal⟩, fun _ _ _ hexec hne hr => exec_paletteForced hexec hne hr⟩
  rw [forceAlpha_getElem?, hp, Option.map_some]

/-- Settles O21: the table's entries, then the black ones. -/
theorem fallbackPaletteEntries : Obligations.FallbackPaletteEntries := by
  unfold Obligations.FallbackPaletteEntries
  refine fun fb hfb => ⟨fallbackPalette_length fb, fun i hi => ?_⟩
  by_cases h16 : i < 16
  · have hc : fb[i]? = some (fb.getD i ⟨0#8, 0#8, 0#8⟩) := by simp [hfb, h16]
    simp [fallbackPalette_getElem?_of_lt h16 hc, h16]
  · have hne : i ≠ 0 := by omega
    simp [fallbackPalette_getElem?_of_ge (Nat.not_lt.mp h16) hi, black, h16, hne]

end Sys2Proof.Proofs
end

section
/-! PROOFS. The encoder (spec/43_rle_encoder.md R260 to R269): its output as maximal runs, as canonical codes inside
the chunks, and its size. -/

namespace Sys2Proof.Machine

open Host

/-! ### The maximal runs (R262, R264) -/

/-- The bytes that a row of runs stands for. -/
def runBytes (runs : List (Nat × Byte)) : List Byte := runs.flatMap fun r => List.replicate r.1 r.2

/-- The three bounds on a run at position `i` with `m` bytes left (R262). -/
def runLimit (c i m : Nat) : Nat := min m (min 63 (c - i % c))

/-- A run at position `i`, with the bytes `left` after it, is as long as R262 makes it. -/
structure MaximalRun (c i len : Nat) (v : Byte) (left : List Byte) : Prop where
  pos : 1 ≤ len
  le_limit : len ≤ runLimit c i (len + left.length)
  maximal : len < runLimit c i (len + left.length) → left.head? ≠ some v

/-- Runs one after another from position `i` on, each of them maximal. -/
def MaximalRuns (c : Nat) : Nat → List (Nat × Byte) → Prop
  | _, [] => True
  | i, r :: runs => MaximalRun c i r.1 r.2 (runBytes runs) ∧ MaximalRuns c (i + r.1) runs

section Runs
variable {c i n len : Nat} {v : Byte} {left : List Byte} {before after runs : List (Nat × Byte)}

theorem runBytes_cons (r : Nat × Byte) (runs : List (Nat × Byte)) :
    runBytes (r :: runs) = List.replicate r.1 r.2 ++ runBytes runs := rfl

theorem runBytes_append (before after : List (Nat × Byte)) :
    runBytes (before ++ after) = runBytes before ++ runBytes after := List.flatMap_append

theorem runBytes_length (runs : List (Nat × Byte)) : (runBytes runs).length = (runs.map Prod.fst).sum := by
  simp only [runBytes, List.length_flatMap, List.length_replicate]

theorem le_63_of_maximalRun (h : MaximalRun c i len v left) : len ≤ 63 := by
  have hle := h.le_limit
  unfold runLimit at hle
  omega

/-- Every position of a maximal run lies in the chunk where the run begins (R267). -/
theorem div_eq_of_maximalRun (h : MaximalRun c i len v left) {j : Nat} (hi : i ≤ j) (hj : j < i + len) :
    j / c = i / c := by
  have hle := h.le_limit
  unfold runLimit at hle
  have hdiv := Nat.div_add_mod i c
  have hlt : i % c + (j - i) < c := by omega
  calc j / c = (c * (i / c) + (i % c + (j - i))) / c := by congr 1; omega
    _ = i / c := by rw [Nat.mul_add_div (by omega), Nat.div_eq_of_lt hlt, Nat.add_zero]

theorem maximalRuns_of_append :
    MaximalRuns c i (before ++ after) → MaximalRuns c (i + (before.map Prod.fst).sum) after := by
  induction before generalizing i with
  | nil => exact id
  | cons r before ih =>
    rintro ⟨-, h⟩
    have h := ih h
    rwa [Nat.add_assoc] at h

/-- The run at any place of the row, with what comes after it. -/
theorem maximalRun_at (h : MaximalRuns c 0 (before ++ (len, v) :: after)) :
    MaximalRun c (before.map Prod.fst).sum len v (runBytes after) := by
  obtain ⟨hrun, -⟩ := maximalRuns_of_append h
  rwa [Nat.zero_add] at hrun

/-- The count of R262's loop: the bytes counted equal `v`, and it ends before its bound only at another byte. -/
theorem runLength_maximal (v : Byte) (room : Nat) (rest : List Byte) :
    runLength v room rest ≤ room ∧
      rest = List.replicate (runLength v room rest) v ++ rest.drop (runLength v room rest) ∧
      (runLength v room rest < room → (rest.drop (runLength v room rest)).head? ≠ some v) := by
  induction room generalizing rest with
  | zero => simp [runLength]
  | succ room ih =>
    cases rest with
    | nil => simp [runLength]
    | cons b rest =>
      by_cases hb : b = v
      · obtain ⟨hle, heq, hmax⟩ := ih rest
        simp only [runLength, hb, if_true, List.replicate_succ, List.drop_succ_cons, List.cons_append]
        exact ⟨by omega, congrArg _ heq, fun hlt => hmax (by omega)⟩
      · simp [runLength, hb]

/-- The run that a pass of R264's loop takes. -/
theorem maximalRun_of_runLength (hc : 1 ≤ c) (v : Byte) (rest : List Byte) {room : Nat}
    (hroom : room = runLimit c i (rest.length + 1) - 1) :
    MaximalRun c i (runLength v room rest + 1) v (rest.drop (runLength v room rest)) := by
  obtain ⟨hle, heq, hmax⟩ := runLength_maximal v room rest
  have hlen := congrArg List.length heq
  rw [List.length_append, List.length_replicate] at hlen
  have hmod : i % c < c := Nat.mod_lt i hc
  have hpos : 1 ≤ runLimit c i (rest.length + 1) := by unfold runLimit; omega
  have hm : runLength v room rest + 1 + (rest.drop (runLength v room rest)).length = rest.length + 1 := by omega
  exact ⟨by omega, by rw [hm]; omega, fun hlt => hmax (by rw [hm] at hlt; omega)⟩

/-- The encoder's loop cuts what is left of its input into maximal runs and writes each by the escape rule. -/
theorem encodeLoop_runs (hc : 1 ≤ c) :
    ∀ (fuel i : Nat) (d : List Byte), d.length ≤ fuel → i + d.length = n →
      ∃ runs, runBytes runs = d ∧ encodeLoop fuel n c i d = runs.flatMap (fun r => emitRun r.1 r.2) ∧
        MaximalRuns c i runs := by
  intro fuel
  induction fuel with
  | zero =>
    intro i d hd _
    obtain rfl := List.eq_nil_of_length_eq_zero (Nat.le_zero.mp hd)
    exact ⟨[], rfl, rfl, trivial⟩
  | succ fuel ih =>
    intro i d hd hn
    cases d with
    | nil => exact ⟨[], rfl, rfl, trivial⟩
    | cons v rest =>
      rw [List.length_cons] at hd hn
      obtain ⟨k, hk⟩ : ∃ k, k = runLength v (runLimit c i (rest.length + 1) - 1) rest := ⟨_, rfl⟩
      have hrun := maximalRun_of_runLength (i := i) hc v rest rfl
      obtain ⟨-, heq, -⟩ := runLength_maximal v (runLimit c i (rest.length + 1) - 1) rest
      rw [← hk] at hrun heq
      have hlen := congrArg List.length heq
      rw [List.length_append, List.length_replicate] at hlen
      obtain ⟨runs, hbytes, hcode, hruns⟩ := ih (i + (k + 1)) (rest.drop k) (by omega) (by omega)
      refine ⟨(k + 1, v) :: runs, ?_, ?_, hbytes ▸ hrun, hruns⟩
      · rw [runBytes_cons, hbytes, List.replicate_succ, List.cons_append, ← heq]
      · have hm : n - i = rest.length + 1 := by omega
        rw [List.flatMap_cons, ← hcode, hk, runLimit, ← hm]
        rfl

theorem rleEncode_runs (hc : 1 ≤ c) (d : List Byte) :
    ∃ runs, runBytes runs = d ∧ rleEncode d c = runs.flatMap (fun r => emitRun r.1 r.2) ∧ MaximalRuns c 0 runs :=
  encodeLoop_runs hc d.length 0 d le_rfl (Nat.zero_add _)

/-- The byte after the run at any place of the row. -/
theorem runBytes_getElem?_after (before after : List (Nat × Byte)) (len : Nat) (v : Byte) :
    (runBytes (before ++ (len, v) :: after))[(before.map Prod.fst).sum + len]? = (runBytes after).head? := by
  rw [runBytes_append, runBytes_cons, ← runBytes_length, List.getElem?_append_right (Nat.le_add_right _ _),
    List.getElem?_append_right (by simp)]
  simp [List.head?_eq_getElem?]

end Runs

/-! ### What a row of codes stands for -/

section Codes
variable {i : Instr} {before after codes : List Instr}

theorem codesExpand_eq_flatMap (codes : List Instr) : codesExpand codes = codes.flatMap fun i => codesExpand [i] := by
  induction codes with
  | nil => rfl
  | cons i codes ih =>
    rw [List.flatMap_cons, ← ih]
    cases i with
    | lit v => rfl
    | run n v => simp [codesExpand]
    | _ => rfl

theorem codesExpand_append (before after : List Instr) :
    codesExpand (before ++ after) = codesExpand before ++ codesExpand after := by
  rw [codesExpand_eq_flatMap, List.flatMap_append, ← codesExpand_eq_flatMap, ← codesExpand_eq_flatMap]

theorem codesExpand_cons (i : Instr) (codes : List Instr) :
    codesExpand (i :: codes) = codesExpand [i] ++ codesExpand codes := codesExpand_append [i] codes

theorem codesExpand_length (codes : List Instr) : (codesExpand codes).length = (codes.map codeCount).sum := by
  rw [codesExpand_eq_flatMap, List.length_flatMap]
  rfl

theorem mem_codesExpand {v : Byte} (hi : i ∈ codes) (hv : v ∈ codesExpand [i]) : v ∈ codesExpand codes := by
  rw [codesExpand_eq_flatMap]
  exact List.mem_flatMap.mpr ⟨i, hi, hv⟩

@[simp] theorem codeCount_lit (v : Byte) : codeCount (.lit v) = 1 := rfl
@[simp] theorem codeCount_run (n : BitVec 6) (v : Byte) : codeCount (.run n v) = n.toNat := by
  simp [codeCount, codesExpand]

end Codes

/-! ### Canonical codes (R265, R266) -/

/-- A code that the encoder emits: a LIT of no marker, or a RUN of 1 to 63, below 3 only for a marker. -/
inductive CanonicalCode : Instr → Prop
  | lit {v : Byte} (hv : isMarker v = false) : CanonicalCode (.lit v)
  | run {n : BitVec 6} {v : Byte} (hpos : 1 ≤ n.toNat) (hshort : n.toNat ≤ 2 → isMarker v = true) :
    CanonicalCode (.run n v)

/-- The codes of one run (R263). -/
def runCodes (r : Nat × Byte) : List Instr :=
  if r.1 ≤ 2 ∧ isMarker r.2 = false then List.replicate r.1 (.lit r.2) else [.run (BitVec.ofNat 6 r.1) r.2]

section Canonical
variable {i : Instr} {codes : List Instr} {r : Nat × Byte}

theorem CanonicalCode.wellFormed (h : CanonicalCode i) : i.WellFormed := by
  cases h with
  | lit hv => simp [Instr.WellFormed, Instr.wellFormed, hv]
  | run => rfl

theorem CanonicalCode.codeForm (h : CanonicalCode i) : isCodeForm i := by
  cases h with
  | lit => simp
  | run => simp

theorem CanonicalCode.count_bounds (h : CanonicalCode i) : 1 ≤ codeCount i ∧ codeCount i ≤ 63 := by
  cases h with
  | lit => simp
  | @run n v hpos => exact ⟨by simpa using hpos, by simpa using Nat.le_of_lt_succ n.isLt⟩

theorem CanonicalCode.length_bytes (h : CanonicalCode i) : (codeBytes i).length = 1 ∨ (codeBytes i).length = 2 := by
  cases h with
  | lit => exact .inl rfl
  | run => exact .inr rfl

theorem codesExpand_runCodes (h : r.1 ≤ 63) : codesExpand (runCodes r) = List.replicate r.1 r.2 := by
  unfold runCodes
  split
  · rw [codesExpand_eq_flatMap, List.flatMap_replicate]
    exact List.flatten_replicate_singleton
  · simp [codesExpand, Nat.mod_eq_of_lt (Nat.lt_succ_of_le h)]

theorem codeBytes_runCodes (h : r.1 ≤ 63) : (runCodes r).flatMap codeBytes = emitRun r.1 r.2 := by
  unfold runCodes emitRun
  split
  · simp [List.flatMap_replicate]
  · rw [List.flatMap_singleton, codeBytes_run_of_le h]

theorem canonicalCode_of_mem_runCodes (hpos : 1 ≤ r.1) (h : r.1 ≤ 63) (hi : i ∈ runCodes r) : CanonicalCode i := by
  unfold runCodes at hi
  split at hi
  · next hlit =>
    rw [List.eq_of_mem_replicate hi]
    exact .lit hlit.2
  · next hrun =>
    have hn : (BitVec.ofNat 6 r.1).toNat = r.1 := by
      rw [BitVec.toNat_ofNat]; exact Nat.mod_eq_of_lt (Nat.lt_succ_of_le h)
    rw [List.mem_singleton.mp hi]
    refine .run (by rwa [hn]) fun hle => ?_
    rw [hn] at hle
    exact Bool.of_not_eq_false fun hm => hrun ⟨hle, hm⟩

end Canonical

/-! ### Codes inside the chunks (R267) -/

/-- Codes one after another from position `pos` on, none of them across a multiple of `c`. -/
def WithinChunks (c : Nat) : Nat → List Instr → Prop
  | _, [] => True
  | pos, i :: codes => pos / c = (pos + codeCount i - 1) / c ∧ WithinChunks c (pos + codeCount i) codes

section Chunks
variable {c pos : Nat} {i : Instr} {before after codes : List Instr}

theorem withinChunks_append :
    WithinChunks c pos (before ++ after) ↔
      WithinChunks c pos before ∧ WithinChunks c (pos + (codesExpand before).length) after := by
  induction before generalizing pos with
  | nil => simp [WithinChunks, codesExpand]
  | cons i before ih =>
    rw [codesExpand_cons, List.length_append, ← Nat.add_assoc]
    exact (and_congr_right fun _ => ih).trans and_assoc.symm

theorem withinChunks_at (h : WithinChunks c 0 (before ++ i :: after)) :
    (codesExpand before).length / c = ((codesExpand before).length + codeCount i - 1) / c := by
  obtain ⟨-, hcode, -⟩ := withinChunks_append.mp h
  rwa [Nat.zero_add] at hcode

/-- Codes whose positions all lie in one chunk. -/
theorem withinChunks_of_div_eq {q : Nat} (hcodes : ∀ i ∈ codes, 1 ≤ codeCount i)
    (h : ∀ j, pos ≤ j → j < pos + (codesExpand codes).length → j / c = q) : WithinChunks c pos codes := by
  induction codes generalizing pos with
  | nil => trivial
  | cons i codes ih =>
    have hpos : 1 ≤ codeCount i := hcodes i (by simp)
    have hlen : (codesExpand (i :: codes)).length = codeCount i + (codesExpand codes).length := by
      rw [codesExpand_cons, List.length_append]; rfl
    refine ⟨?_, ih (fun i hi => hcodes i (List.mem_cons_of_mem _ hi)) fun j hj hlt => h j (by omega) (by omega)⟩
    rw [h pos le_rfl (by omega), h (pos + codeCount i - 1) (by omega) (by omega)]

/-- A chunk that divides another bounds the codes to it as well. -/
theorem withinChunks_of_dvd {m : Nat} (hdvd : c ∣ m) (h : WithinChunks c pos codes) : WithinChunks m pos codes := by
  obtain ⟨k, rfl⟩ := hdvd
  induction codes generalizing pos with
  | nil => trivial
  | cons i codes ih =>
    obtain ⟨hcode, hrest⟩ := h
    exact ⟨by rw [← Nat.div_div_eq_div_mul, ← Nat.div_div_eq_div_mul, hcode], ih hrest⟩

end Chunks

/-! ### The encoder's output as codes -/

section Output
variable {c : Nat} {d : List Byte} {codes : List Instr}

/-- The codes of maximal runs stand for the same bytes, are canonical, and stay inside the chunks. -/
theorem codes_of_maximalRuns {pos : Nat} {runs : List (Nat × Byte)} (h : MaximalRuns c pos runs) :
    (runs.flatMap runCodes).flatMap codeBytes = runs.flatMap (fun r => emitRun r.1 r.2) ∧
      codesExpand (runs.flatMap runCodes) = runBytes runs ∧
      (∀ i ∈ runs.flatMap runCodes, CanonicalCode i) ∧ WithinChunks c pos (runs.flatMap runCodes) := by
  induction runs generalizing pos with
  | nil => exact ⟨rfl, rfl, by simp, trivial⟩
  | cons r runs ih =>
    obtain ⟨hrun, hruns⟩ := h
    obtain ⟨hbytes, hexpand, hcanonical, hchunks⟩ := ih hruns
    have h63 := le_63_of_maximalRun hrun
    have hlen : (codesExpand (runCodes r)).length = r.1 := by
      rw [codesExpand_runCodes h63, List.length_replicate]
    have hcodes : ∀ i ∈ runCodes r, CanonicalCode i := fun i => canonicalCode_of_mem_runCodes hrun.pos h63
    have hfirst : WithinChunks c pos (runCodes r) :=
      withinChunks_of_div_eq (fun i hi => (hcodes i hi).count_bounds.1) fun j hj hlt =>
        div_eq_of_maximalRun hrun hj (hlen ▸ hlt)
    simp only [List.flatMap_cons]
    refine ⟨?_, ?_, ?_, ?_⟩
    · rw [List.flatMap_append, codeBytes_runCodes h63, hbytes]
    · rw [codesExpand_append, codesExpand_runCodes h63, hexpand, runBytes_cons]
    · exact fun i hi => (List.mem_append.mp hi).elim (hcodes i) (hcanonical i)
    · exact withinChunks_append.mpr ⟨hfirst, hlen.symm ▸ hchunks⟩

theorem rleEncode_codes (hc : 1 ≤ c) (d : List Byte) :
    ∃ codes, rleEncode d c = codes.flatMap codeBytes ∧ codesExpand codes = d ∧ (∀ i ∈ codes, CanonicalCode i) ∧
      WithinChunks c 0 codes := by
  obtain ⟨runs, rfl, hencode, hruns⟩ := rleEncode_runs hc d
  obtain ⟨hbytes, hexpand, hcanonical, hchunks⟩ := codes_of_maximalRuns hruns
  exact ⟨_, hencode.trans hbytes.symm, hexpand, hcanonical, hchunks⟩

/-! ### Sizes (R269) -/

theorem length_codeBytes_le (h : ∀ i ∈ codes, CanonicalCode i) :
    (codes.flatMap codeBytes).length ≤ 2 * (codesExpand codes).length := by
  rw [List.length_flatMap, codesExpand_length, ← List.sum_map_mul_left]
  refine List.sum_le_sum fun i hi => ?_
  have hcount := (h i hi).count_bounds
  have hlen := (h i hi).length_bytes
  omega

theorem length_codesExpand_le (h : ∀ i ∈ codes, CanonicalCode i) :
    (codesExpand codes).length ≤ 63 * codes.length := by
  have hsum := List.sum_le_card_nsmul (codes.map codeCount) 63 fun n hn => by
    obtain ⟨i, hi, rfl⟩ := List.mem_map.mp hn
    exact (h i hi).count_bounds.2
  rw [codesExpand_length]
  simpa [Nat.mul_comm] using hsum

/-- Where the chunks are single bytes every code stands for one byte. -/
theorem codeCount_of_single_chunks {i : Instr} (h : ∀ i ∈ codes, CanonicalCode i) (hchunks : WithinChunks 1 0 codes)
    (hi : i ∈ codes) : codeCount i = 1 := by
  obtain ⟨before, after, rfl⟩ := List.append_of_mem hi
  have hcode := withinChunks_at hchunks
  have hpos := (h i hi).count_bounds.1
  rw [Nat.div_one, Nat.div_one] at hcode
  omega

/-- The worst case: every byte is a marker and stands alone, so every code is a RUN of one. -/
theorem length_codeBytes_of_single_markers (h : ∀ i ∈ codes, CanonicalCode i) (hchunks : WithinChunks 1 0 codes)
    (hmarkers : ∀ v ∈ codesExpand codes, isMarker v = true) :
    (codes.flatMap codeBytes).length = 2 * (codesExpand codes).length := by
  rw [List.length_flatMap, codesExpand_length, ← List.sum_map_mul_left]
  refine congrArg List.sum (List.map_congr_left fun i hi => ?_)
  rw [codeCount_of_single_chunks h hchunks hi]
  cases h i hi with
  | @lit v hv =>
    have hmarker := hmarkers v (mem_codesExpand hi (by simp [codesExpand]))
    rw [hv] at hmarker
    cases hmarker
  | run => rfl

end Output

end Sys2Proof.Machine

namespace Sys2Proof.Proofs

open Sys2Proof Sys2Proof.Machine Host

/-- Settles O29: the loop cuts the input into maximal runs, and the codes of a maximal run are canonical and stay in
its chunk. -/
theorem encoderOutputIsCanonical : Obligations.EncoderOutputIsCanonical := by
  unfold Obligations.EncoderOutputIsCanonical
  intro d c hc
  constructor
  · obtain ⟨runs, rfl, hencode, hruns⟩ := rleEncode_runs hc d
    refine ⟨runs, rfl, hencode, ?_⟩
    rintro before after len v i limit rfl rfl rfl
    have hrun := maximalRun_at hruns
    have hleft : (runBytes (before ++ (len, v) :: after)).length - (before.map Prod.fst).sum =
        len + (runBytes after).length := by
      rw [runBytes_append, List.length_append, ← runBytes_length, Nat.add_sub_cancel_left, runBytes_cons,
        List.length_append, List.length_replicate]
    rw [hleft, runBytes_getElem?_after]
    exact ⟨hrun.pos, hrun.le_limit, hrun.maximal⟩
  · obtain ⟨codes, hencode, hexpand, hcanonical, hchunks⟩ := rleEncode_codes hc d
    refine ⟨codes, hencode, hexpand, fun i hi => ⟨(hcanonical i hi).codeForm, (hcanonical i hi).wellFormed⟩,
      fun n v hi => ?_, ?_⟩
    · cases hcanonical _ hi with
      | run hpos hshort => exact ⟨hpos, hshort⟩
    · rintro before after i rfl
      exact withinChunks_at hchunks

/-- Settles O30: a canonical code has one or two bytes and stands for 1 to 63; with single-byte chunks of markers each
is a RUN of one. -/
theorem encoderOutputSize : Obligations.EncoderOutputSize := by
  unfold Obligations.EncoderOutputSize
  intro d c hc
  obtain ⟨codes, hencode, rfl, hcanonical, hchunks⟩ := rleEncode_codes hc d
  rw [hencode]
  refine ⟨length_codeBytes_le hcanonical, ⟨codes, rfl, rfl, length_codesExpand_le hcanonical, fun i hi =>
    ⟨(hcanonical i hi).wellFormed, (hcanonical i hi).length_bytes⟩⟩, fun hmarkers hone => ?_⟩
  exact length_codeBytes_of_single_markers hcanonical (hone ▸ hchunks) hmarkers

end Sys2Proof.Proofs
end

section
/-! PROOFS. Decoding what was encoded (spec/43_rle_encoder.md R268): a raw body on answering ports, code by code, where
each run ends in its scanline or is carried on. -/

namespace Sys2Proof.Machine

open Host

section Raw
variable {cfg : Config} {e e' : Engine} {line line' left out : List Byte} {p : Ports} {i : Instr}

/-! ### One request of a raw body -/

/-- The core fetches the code that `decodeCode` reads from the input, whatever is left of the draws. -/
theorem fetchCode_of_answering (ha : p.Answering) (h : decodeCode p.input = .ok (i, left)) :
    ∃ ds, (∀ d ∈ ds, d = PortDraw.ok) ∧ fetchCode p = .ok (some i) { p.consumedTo left with draws := ds } := by
  obtain ⟨b, hp, hb, rfl⟩ | ⟨b, v, hp, hb, rfl⟩ := decodeCode_eq_ok.mp h
  · exact ⟨_, answered_answering ha, by rw [fetchCode_lit ha hp hb, consumedTo_of_one hp]; rfl⟩
  · exact ⟨_, answered_answering (answered_answering ha), by
      rw [fetchCode_run ha hp hb, consumedTo_of_two hp]; rfl⟩

/-- emitRaw sends its scanline (spec/45_commands.md R362). -/
theorem emitLine_raw_of_answering (ha : p.Answering) (hraw : e.consumer = .raw) (hb : e.lineLen ≤ lineBound)
    (hl : line.length = e.lineLen) :
    ∃ ds, (∀ d ∈ ds, d = PortDraw.ok) ∧
      emitLine e line p = .ok e { p with output := p.output ++ line, draws := ds } := by
  have hread : memRead lineBound line 0 e.lineLen = some line :=
    memRead_eq_some.mpr ⟨by omega, by omega, by simp [← hl]⟩
  refine ⟨p.draws.drop 1, fun d hd => ha d (List.mem_of_mem_drop hd), ?_⟩
  simp [emitLine, hraw, hread, write, writeAll_of_answering _ ha]

/-! ### The copies of a run (R180, R181, R188) -/

/-- What the present scanline begins with, and the copies that are left of the run. -/
def Engine.pending (e : Engine) (line : List Byte) : List Byte := line.take e.x ++ List.replicate e.rem e.val

/-- The writes move copies of the run into the scanline, as many as there is room for. -/
theorem writeCopies_pending (h : writeCopies e line = some (e', line')) (hx : e.x ≤ line.length) :
    e'.x = e.x + min e.rem (e.lineLen - e.x) ∧ e'.rem = e.rem - min e.rem (e.lineLen - e.x) ∧
      e'.pending line' = e.pending line := by
  obtain ⟨out, ho, he⟩ := Option.map_eq_some_iff.mp h
  obtain ⟨rfl, rfl⟩ := Prod.mk.inj he
  obtain ⟨-, -, rfl⟩ := memWrite_eq_some.mp ho
  refine ⟨rfl, rfl, ?_⟩
  have hlen : (line.take e.x ++ List.replicate (min e.rem (e.lineLen - e.x)) e.val).length =
      e.x + min e.rem (e.lineLen - e.x) := by
    rw [List.length_append, List.length_take, List.length_replicate, min_eq_left hx]
  unfold Engine.pending
  rw [List.take_left' hlen, List.append_assoc, ← List.replicate_add, Nat.add_sub_cancel' (Nat.min_le_left _ _)]

theorem writeCopies_exists (hb : e.lineLen ≤ lineBound) (hx : e.x ≤ e.lineLen) (hl : line.length = e.lineLen) :
    ∃ e' line', writeCopies e line = some (e', line') :=
  ⟨_, _, writeCopies_of_fits (by omega) (by omega)⟩

/-- Where no run is left or runs are carried, a scanline begins with the copies that are left. -/
theorem startLine_of_running (hs : e.stopped = false) (hcarry : e.rem = 0 ∨ cfg.lineRunPolicy = .carry) :
    startLine cfg e = writeCopies { e with x := 0 } (List.replicate e.lineLen e.fill) := by
  have hfresh : freshEngine cfg e = { e with x := 0 } := by
    obtain ⟨lineLen, lines, fill, consumer, staged, y, x, rem, val, stopped⟩ := e
    rcases hcarry with h | h
    · obtain rfl : rem = 0 := h
      unfold freshEngine
      split <;> rfl
    · simp [freshEngine, h]
  show (if e.stopped then some (freshEngine cfg e, List.replicate e.lineLen e.fill)
    else writeCopies (freshEngine cfg e) (List.replicate e.lineLen e.fill)) = _
  rw [hfresh, if_neg (by simp [hs])]

/-! ### Scanlines between two codes -/

/-- What the present scanline holds of the decoded bytes. -/
def Engine.present (e : Engine) (line : List Byte) : List Byte := if e.y < e.lines then line.take e.x else []

/-- A raw body on answering ports has decoded `out`: the whole scanlines of it were sent, and the present scanline
begins with the rest. -/
structure Engine.Decoded (e : Engine) (line : List Byte) (p : Ports) (out : List Byte) : Prop where
  answering : p.Answering
  sent : p.output.length = e.y * e.lineLen
  eq : p.output ++ e.present line = out

theorem staged_of_raw (hraw : e.consumer = .raw) : e.Staged := by simp [Engine.Staged, hraw]

/-- The engine sends the scanlines that the copies left of a run fill. -/
theorem settle_decoded {n : Nat} (hn : n = e.lines - e.y) (hraw : e.consumer = .raw) (hb : e.lineLen ≤ lineBound)
    (hfits : e.Fits line) (hs : e.stopped = false) (hcarry : e.rem = 0 ∨ cfg.lineRunPolicy = .carry)
    (ha : p.Answering) (hsent : p.output.length = e.y * e.lineLen)
    (hroom : e.y * e.lineLen + e.x + e.rem ≤ e.lines * e.lineLen) :
    ∃ e' line' q, settle cfg n e line p = .ok (e', line') q ∧ q.input = p.input ∧ q.cursor = p.cursor ∧
      e'.Decoded line' q (p.output ++ e.pending line) := by
  have hy := hfits.y_lt
  induction n generalizing e line p with
  | zero => omega
  | succ n ih =>
    by_cases hx : e.x < e.lineLen
    · have hrem := hfits.rem_eq hs hx
      exact ⟨e, line, p, settle_at_boundary cfg (Nat.succ_ne_zero n) line p hx hs, rfl, rfl, ha, hsent,
        by simp [Engine.present, Engine.pending, hy, hrem]⟩
    · have hx : e.x = e.lineLen := le_antisymm hfits.x_le (Nat.not_lt.mp hx)
      obtain ⟨ds, hds, hemit⟩ := emitLine_raw_of_answering ha hraw hb hfits.line_length
      have hpending : e.pending line = line ++ List.replicate e.rem e.val := by
        rw [Engine.pending, hx, ← hfits.line_length, List.take_length]
      have hsent' : (p.output ++ line).length = (e.y + 1) * e.lineLen := by
        rw [List.length_append, hsent, hfits.line_length, Nat.succ_mul]
      rw [settle, if_neg (by omega), hemit, andThen_ok, hpending, ← List.append_assoc]
      by_cases hn0 : n = 0
      · have hlast : e.lines = e.y + 1 := by omega
        have hrem : e.rem = 0 := by rw [hlast, Nat.succ_mul] at hroom; omega
        refine ⟨e.nextLine, line, _, if_pos hn0, rfl, rfl, hds, hsent', ?_⟩
        simp [Engine.present, Engine.nextLine, hlast, hrem]
      · obtain ⟨e₂, line₂, hwrite⟩ := writeCopies_exists (e := { e.nextLine with x := 0 }) hb (Nat.zero_le _)
          (line := List.replicate e.lineLen e.fill) List.length_replicate
        have hstart := (startLine_of_running (e := e.nextLine) (cfg := cfg) hs hcarry).trans hwrite
        obtain ⟨hx₂, hrem₂, hpending₂⟩ := writeCopies_pending hwrite (Nat.zero_le _)
        obtain ⟨-, -, hlineLen₂, -, hy₂, hlines₂, -, hcons₂, -, hs₂, -⟩ :=
          writeCopies_bounds hwrite (Nat.zero_le _) List.length_replicate
        simp only [Engine.nextLine] at hx₂ hrem₂ hlineLen₂ hy₂ hlines₂ hcons₂ hs₂
        have hfits₂ := startLine_fits hstart (show e.y + 1 < e.lines by omega) (staged_of_raw (by exact hraw))
        obtain ⟨e', line', q, hset, hin, hcursor, hdec⟩ := ih (e := e₂) (line := line₂)
          (p := { p with output := p.output ++ line, draws := ds }) (by omega) (hcons₂.trans hraw)
          (hlineLen₂ ▸ hb) hfits₂ (hs₂.trans hs) (hcarry.imp_left fun h => by omega) hds
          (by rw [hy₂, hlineLen₂]; exact hsent')
          (by rw [hy₂, hlineLen₂, hlines₂, Nat.succ_mul]; omega) hfits₂.y_lt
        refine ⟨e', line', q, ?_, hin, hcursor, ?_⟩
        · rw [if_neg hn0, show ({ e with y := e.y + 1 } : Engine) = e.nextLine from rfl, hstart]
          exact hset
        · rw [hpending₂] at hdec
          exact hdec

/-! ### One code, and the codes to the end -/

/-- A code loads the copies it stands for. -/
theorem pending_load (e : Engine) (i : Instr) (line : List Byte) :
    (e.load i).rem = codeCount i ∧ (e.load i).pending line = line.take e.x ++ codesExpand [i] := by
  cases i with
  | run n v => simp [codesExpand, Engine.pending, Engine.load]
  | _ => exact ⟨rfl, rfl⟩

/-- Inside a scanline the decoded bytes count the positions that were written. -/
theorem length_of_decoded (hdec : e.Decoded line p out) (hy : e.y < e.lines) (hat : e.AtCode line) :
    out.length = e.y * e.lineLen + e.x := by
  obtain ⟨hx, -, -, hl⟩ := hat
  rw [← hdec.eq, List.length_append, hdec.sent, Engine.present, if_pos hy, List.length_take, hl, min_eq_left hx.le]

/-- Once all the positions of the body are decoded, the body is over and everything was sent. -/
theorem over_of_decoded (hset : e.Settled line) (hdec : e.Decoded line p out)
    (hlen : out.length = e.lines * e.lineLen) : ¬ e.y < e.lines ∧ p.output = out := by
  have hover : ¬ e.y < e.lines := fun hy => by
    have hat := hset.atCode hy
    have hpos := length_of_decoded hdec hy hat
    obtain ⟨hx, -⟩ := hat
    have hle : (e.y + 1) * e.lineLen ≤ e.lines * e.lineLen := Nat.mul_le_mul_right _ hy
    rw [Nat.succ_mul] at hle
    omega
  have heq := hdec.eq
  rw [Engine.present, if_neg hover, List.append_nil] at heq
  exact ⟨hover, heq⟩

/-- While positions are left the body is not over. -/
theorem running_of_decoded (hset : e.Settled line) (hdec : e.Decoded line p out)
    (hlen : out.length < e.lines * e.lineLen) : e.y < e.lines := by
  refine lt_of_le_of_ne hset.y_le fun hy => ?_
  have heq := congrArg List.length hdec.eq
  rw [List.length_append, hdec.sent, hy] at heq
  omega

/-- A code whose first and last position lie in one scanline ends in it. -/
theorem add_le_of_div_eq {y x n lineLen : Nat} (hx : x < lineLen)
    (h : (y * lineLen + x) / lineLen = (y * lineLen + x + n - 1) / lineLen) : x + n ≤ lineLen := by
  have hpos : 0 < lineLen := by omega
  have hy : (y * lineLen + x) / lineLen = y := by
    rw [Nat.mul_comm, Nat.mul_add_div hpos, Nat.div_eq_of_lt hx, Nat.add_zero]
  have hlt := Nat.lt_mul_div_succ (y * lineLen + x + n - 1) hpos
  rw [← h, hy, Nat.mul_succ, Nat.mul_comm] at hlt
  omega

/-- A code that ends in its scanline, or is carried on, adds the bytes it stands for. -/
theorem codeReply_decoded (hraw : e.consumer = .raw) (hb : e.lineLen ≤ lineBound) (hset : e.Settled line)
    (hdec : e.Decoded line p out) (hy : e.y < e.lines) (hcode : decodeCode p.input = .ok (i, left))
    (hroom : out.length + codeCount i ≤ e.lines * e.lineLen)
    (hfit : cfg.lineRunPolicy = .carry ∨ out.length / e.lineLen = (out.length + codeCount i - 1) / e.lineLen) :
    ∃ e' line' q, codeReply cfg e line p = .ok (e', line') q ∧ q.input = left ∧
      q.cursor + left.length = p.cursor + p.input.length ∧ e'.Decoded line' q (out ++ codesExpand [i]) := by
  have hat := hset.atCode hy
  have hpos := length_of_decoded hdec hy hat
  obtain ⟨hx, -, hs, hl⟩ := id hat
  have hout := hdec.eq
  rw [Engine.present, if_pos hy] at hout
  obtain ⟨ds, hds, hfetch⟩ := fetchCode_of_answering hdec.answering hcode
  obtain ⟨e₁, line₁, hwrite⟩ := writeCopies_exists (e := e.load i) hb hx.le hl
  obtain ⟨hcount, hload⟩ := pending_load e i line
  obtain ⟨hx₁, hrem₁, hpending₁⟩ := writeCopies_pending hwrite (show e.x ≤ line.length by omega)
  obtain ⟨-, -, hlineLen₁, -, hy₁, hlines₁, -, hcons₁, -, hs₁, -⟩ := writeCopies_bounds hwrite hx.le hl
  rw [hcount] at hx₁ hrem₁
  simp only [Engine.load] at hx₁ hrem₁ hlineLen₁ hy₁ hlines₁ hcons₁ hs₁
  have hends : e₁.rem = 0 ∨ cfg.lineRunPolicy = .carry := hfit.symm.imp_left fun hdiv => by
    rw [hpos] at hdiv
    have hle := add_le_of_div_eq hx hdiv
    omega
  obtain ⟨e', line', q, hsettle, hin, hcursor, hdec'⟩ := settle_decoded (cfg := cfg)
    (p := { p.consumedTo left with draws := ds }) rfl (hcons₁.trans hraw) (hlineLen₁ ▸ hb)
    (codeDone_fits (.inr ⟨_, _, hwrite⟩) hy hat hset.staged) (hs₁.trans hs) hends hds
    (by rw [hy₁, hlineLen₁]; exact hdec.sent) (by rw [hy₁, hlineLen₁, hlines₁]; omega)
  refine ⟨e', line', q, ?_, hin, ?_, ?_⟩
  · simp only [codeReply, hfetch, andThen_ok, hwrite, inRange_some]
    exact hsettle
  · have hless := decodeCode_length hcode
    rw [hcursor]
    show p.cursor + (p.input.length - left.length) + left.length = _
    omega
  · rw [hpending₁, hload, ← List.append_assoc] at hdec'
    rw [← hout]
    exact hdec'

/-- Canonical codes that stand for all the positions left, none across a scanline's end unless runs are carried, are
decoded to the end of the body. -/
theorem bodyReply_decoded {n : Nat} {codes : List Instr} (hraw : e.consumer = .raw) (hb : e.lineLen ≤ lineBound)
    (hset : e.Settled line) (hdec : e.Decoded line p out) (hcanonical : ∀ i ∈ codes, CanonicalCode i)
    (hin : p.input = codes.flatMap codeBytes) (hn : p.input.length ≤ n)
    (hlen : out.length + (codesExpand codes).length = e.lines * e.lineLen)
    (hfit : cfg.lineRunPolicy = .carry ∨ WithinChunks e.lineLen out.length codes) :
    ∃ b q, bodyReply cfg n e line p = .ok b q ∧ q.cursor = p.cursor + p.input.length ∧
      q.output = out ++ codesExpand codes := by
  induction codes generalizing n e line p out with
  | nil =>
    obtain ⟨hover, hout⟩ := over_of_decoded hset hdec hlen
    exact ⟨_, p, bodyReply_of_over n line p hover, by rw [hin]; rfl, hout.trans (List.append_nil _).symm⟩
  | cons i codes ih =>
    have hi := hcanonical i (by simp)
    have hcount := hi.count_bounds.1
    rw [codesExpand_cons, List.length_append] at hlen
    have hcode : decodeCode p.input = .ok (i, codes.flatMap codeBytes) := by
      rw [hin]; exact decodeCode_codeBytes hi.wellFormed hi.codeForm _
    have hless := decodeCode_length hcode
    have hcountLen : (codesExpand [i]).length = codeCount i := rfl
    have hy := running_of_decoded hset hdec (by omega)
    obtain ⟨e₁, line₁, q₁, hreply, hin₁, hcursor₁, hdec₁⟩ := codeReply_decoded (cfg := cfg) hraw hb hset hdec hy hcode
      (by omega) (hfit.imp_right fun h => h.1)
    have hsame := codeReply_sameBody hreply
    obtain ⟨n, rfl⟩ : ∃ m, n = m + 1 := ⟨n - 1, by omega⟩
    obtain ⟨b, q, hbody, hcursor, hout⟩ := ih (n := n) (hsame.consumer.trans hraw) (hsame.lineLen ▸ hb)
      (codeReply_settled hy hset hreply) hdec₁ (fun i hi => hcanonical i (List.mem_cons_of_mem _ hi)) hin₁
      (by rw [hin₁]; omega) (by rw [List.length_append, hsame.lines, hsame.lineLen]; omega)
      (hfit.imp_right fun h => by rw [List.length_append, hsame.lineLen]; exact h.2)
    refine ⟨b, q, ?_, ?_, ?_⟩
    · rw [bodyReply, if_pos hy, hreply, andThen_ok, hbody]
    · rw [hcursor, hin₁, hcursor₁]
    · rw [hout, codesExpand_cons i codes, List.append_assoc]

end Raw

section Command
variable {s : State} {p : Ports}

/-- RLE_DECODE's body is entered without a request, at its first position or over. -/
theorem enterBody_rawEngine (h1 : 1 ≤ s.arg0.toNat) (h2 : s.arg0.toNat ≤ 3 * 65535) (p : Ports) :
    ∃ line, enterBody s.cfg (rawEngine s) p = .ok (rawEngine s, line) p := by
  by_cases h0 : s.arg1.toNat = 0
  · exact ⟨[], if_pos h0⟩
  · exact ⟨_, enterBody_of_enters s.cfg (rawEngine_enters h1 h2 (Nat.pos_of_ne_zero h0)) p⟩

/-- RLE_DECODE's body on canonical codes for all its positions, each inside a scanline or carried on. -/
theorem runBody_of_codes {codes : List Instr} (h1 : 1 ≤ s.arg0.toNat) (h2 : s.arg0.toNat ≤ 3 * 65535)
    (ha : p.Answering) (hout : p.output = []) (hin : p.input = codes.flatMap codeBytes)
    (hcanonical : ∀ i ∈ codes, CanonicalCode i)
    (hlen : (codesExpand codes).length = s.arg0.toNat * s.arg1.toNat)
    (hfit : s.cfg.lineRunPolicy = .carry ∨ WithinChunks s.arg0.toNat 0 codes) :
    ∃ b q, runBody s.cfg (rawEngine s) p = .ok b q ∧ q.cursor = p.cursor + p.input.length ∧
      q.output = codesExpand codes := by
  obtain ⟨line, henter⟩ := enterBody_rawEngine h1 h2 p
  have hdec : (rawEngine s).Decoded line p [] :=
    ⟨ha, by rw [hout]; exact (Nat.zero_mul _).symm, by
      rw [hout, Engine.present]; split <;> rfl⟩
  obtain ⟨b, q, hbody, hcursor, hsent⟩ := bodyReply_decoded (cfg := s.cfg) rfl (by exact h2)
    (enterBody_settled henter rfl (staged_of_raw rfl)) hdec hcanonical hin (Nat.le_succ _)
    (by rw [hlen, List.length_nil, Nat.zero_add, Nat.mul_comm]; rfl) hfit
  exact ⟨b, q, by rw [runBody, henter, andThen_ok, hbody], hcursor, hsent⟩

/-- A raw body that comes to its end ends its command with success (spec/45_commands.md R362). -/
theorem continueBody_of_raw_end {u : State} {e : Engine} {line : List Byte} {q : Ports} (hover : ¬ e.y < e.lines)
    (hraw : e.consumer = .raw) : continueBody u (.ok (e, line) q) = .next (endCommand Status.success q u) := by
  simp [continueBody, hover, finishBody, hraw, noEffect]

/-- RLE_DECODE of canonical codes outputs what they stand for. -/
theorem execRleDecode_of_codes {codes : List Instr} (hready : s.Ready) (ha : s.PortsAnswer) (h1 : 1 ≤ s.arg0.toNat)
    (h2 : s.arg0.toNat ≤ 3 * 65535) (hin : s.ports.input = codes.flatMap codeBytes)
    (hcanonical : ∀ i ∈ codes, CanonicalCode i)
    (hlen : (codesExpand codes).length = s.arg0.toNat * s.arg1.toNat)
    (hfit : s.cfg.lineRunPolicy = .carry ∨ WithinChunks s.arg0.toNat 0 codes) :
    ∃ t, exec .rleDecode s = .next t ∧ Ended t Status.success s.ports.input.length (codesExpand codes) ∧
      KeepsAll s t := by
  obtain ⟨u, hkeeps, -, hexec⟩ := execRleDecode_body hready h1 h2
  obtain ⟨⟨e, line⟩, q, hbody, hcursor, hout⟩ :=
    runBody_of_codes (p := startPorts s.ports) h1 h2 ha rfl hin hcanonical hlen hfit
  obtain ⟨hover, hsame⟩ := runBody_ends hbody
  rw [hbody, continueBody_of_raw_end hover hsame.consumer] at hexec
  rw [startPorts_cursor, startPorts_input, Nat.zero_add] at hcursor
  refine ⟨_, hexec, ?_, by simpa [KeepsAll, KeepsResults, KeepsOperands] using hkeeps⟩
  rw [← hcursor, ← hout]
  exact endCommand_ended _ q u

end Command

end Sys2Proof.Machine

namespace Sys2Proof.Proofs

open Sys2Proof Sys2Proof.Machine Host

/-- Settles O31: the encoder's codes stand for the input, and where the chunk divides the scanline none of them crosses
a scanline's end. -/
theorem decodeOfEncodeIsIdentity : Obligations.DecodeOfEncodeIsIdentity := by
  unfold Obligations.DecodeOfEncodeIsIdentity
  intro s d c hready ha h1 h2 hlen hc hpolicy hin
  obtain ⟨codes, hencode, hexpand, hcanonical, hchunks⟩ := rleEncode_codes hc d
  have hfit : s.cfg.lineRunPolicy = .carry ∨ WithinChunks s.arg0.toNat 0 codes :=
    hpolicy.symm.imp_right fun hmod => withinChunks_of_dvd (Nat.dvd_of_mod_eq_zero hmod) hchunks
  have hexec := execRleDecode_of_codes hready ha h1 h2 (hin.trans hencode) hcanonical (hexpand ▸ hlen) hfit
  rwa [hin, hexpand] at hexec

end Sys2Proof.Proofs
end

section
/-! PROOFS. The round-trip writer (spec/44_writers.md R290 to R297): rows of one length one after another, how a
writer command ends, the body sequence, and the header around it. -/

namespace Sys2Proof.Machine

open Host

/-! ### Rows of one length, one after another -/

section Blocks
variable {α : Type} {pre after row : List α} {rows : List (List α)} {n k i j m : Nat}

theorem flatten_length_of_rows (h : ∀ r ∈ rows, r.length = k) : rows.flatten.length = rows.length * k := by
  rw [List.length_flatten, List.map_congr_left h, List.map_const', List.sum_replicate, smul_eq_mul]

theorem drop_flatten_of_rows (h : ∀ r ∈ rows, r.length = k) (hi : rows[i]? = some row) :
    rows.flatten.drop (i * k) = row ++ (rows.drop (i + 1)).flatten := by
  induction rows generalizing i with
  | nil => simp at hi
  | cons first rows ih =>
    obtain ⟨hfirst, hrows⟩ := List.forall_mem_cons.mp h
    cases i with
    | zero =>
      obtain rfl : first = row := by simpa using hi
      simp
    | succ i =>
      rw [List.flatten_cons, Nat.succ_mul, Nat.add_comm, ← List.drop_drop, List.drop_left' hfirst]
      exact ih hrows (by simpa using hi)

/-- What stands from position `j` of row `i` on. -/
theorem drop_rows (hpre : pre.length = n) (h : ∀ r ∈ rows, r.length = k) (hi : rows[i]? = some row) (hj : j ≤ k) :
    (pre ++ (rows.flatten ++ after)).drop (n + i * k + j) = row.drop j ++ ((rows.drop (i + 1)).flatten ++ after) := by
  have hrow : row.length = k := h row (List.mem_of_getElem? hi)
  have hlen : i * k ≤ rows.flatten.length := by
    rw [flatten_length_of_rows h]
    exact Nat.mul_le_mul_right k (List.getElem?_eq_some_iff.mp hi).1.le
  rw [← List.drop_drop, ← List.drop_drop, List.drop_left' hpre, List.drop_append_of_le_length hlen,
    drop_flatten_of_rows h hi, List.append_assoc, List.drop_append_of_le_length (hrow ▸ hj)]

theorem getElem?_rows (hpre : pre.length = n) (h : ∀ r ∈ rows, r.length = k) (hi : rows[i]? = some row)
    (hj : j < k) : (pre ++ (rows.flatten ++ after))[n + i * k + j]? = row[j]? := by
  have hrow : j < row.length := (h row (List.mem_of_getElem? hi)).symm ▸ hj
  rw [← List.head?_drop, drop_rows hpre h hi hj.le, List.head?_append_of_ne_nil _ (by simpa using hrow),
    List.head?_drop]

theorem getElem?_flatten_of_rows (h : ∀ r ∈ rows, r.length = k) (hi : rows[i]? = some row) (hj : j < k) :
    rows.flatten[i * k + j]? = row[j]? := by
  have hblock := getElem?_rows (pre := []) (after := []) rfl h hi hj
  rwa [List.nil_append, List.append_nil, List.length_nil, Nat.zero_add] at hblock

theorem take_drop_rows (hpre : pre.length = n) (h : ∀ r ∈ rows, r.length = k) (hi : rows[i]? = some row)
    (hm : j + m ≤ k) : ((pre ++ (rows.flatten ++ after)).drop (n + i * k + j)).take m = (row.drop j).take m := by
  have hrow : row.length = k := h row (List.mem_of_getElem? hi)
  rw [drop_rows hpre h hi (by omega), List.take_append_of_le_length (by rw [List.length_drop]; omega)]

/-- Byte groups of one size: the group of element `i`. -/
theorem take_drop_flatMap {β : Type} {f : β → List α} {l : List β} {b : β} (hf : ∀ b, (f b).length = k)
    (hi : l[i]? = some b) : ((l.flatMap f).drop (k * i)).take k = f b := by
  have hblock := take_drop_rows (pre := []) (rows := l.map f) (after := []) (k := k) (j := 0) (m := k) rfl
    (by simp [hf]) (show (l.map f)[i]? = some (f b) by simp [hi]) (by omega)
  rw [List.drop_zero, List.take_of_length_le (hf b).le] at hblock
  simpa [List.flatMap_def, Nat.mul_comm] using hblock

end Blocks

/-! ### The rows of an Image (R57, R58, R291) -/

section Rows
variable {α β : Type} {buf : List α} {w h y x r : Nat} {row : Nat → β} {b : β}

theorem rowOf_length (hbuf : buf.length = w * h) (hy : y < h) : (rowOf buf w y).length = w := by
  have hle : (y + 1) * w ≤ h * w := Nat.mul_le_mul_right w hy
  rw [Nat.succ_mul, Nat.mul_comm h] at hle
  rw [rowOf, List.length_take, List.length_drop]
  omega

theorem rowOf_getElem? (hx : x < w) : (rowOf buf w y)[x]? = buf[y * w + x]? := by
  rw [rowOf, List.getElem?_take_of_lt hx, List.getElem?_drop]

theorem rowOf_getD (hx : x < w) (d : α) : (rowOf buf w y).getD x d = buf.getD (y * w + x) d := by
  rw [List.getD_eq_getElem?_getD, rowOf_getElem? hx, List.getD_eq_getElem?_getD]

theorem map_getD_of_lt {f : α → β} (hx : x < buf.length) {d : α} {d' : β} :
    (buf.map f).getD x d' = f (buf.getD x d) := by
  rw [List.getD_eq_getElem _ _ (by simpa using hx), List.getElem_map, List.getD_eq_getElem _ _ hx]

/-- The rows one after another are the buffer. -/
theorem flatten_rowOf (hbuf : buf.length = w * h) : (topDown h (rowOf buf w)).flatten = buf := by
  have hrows : ∀ n, (topDown n (rowOf buf w)).flatten = buf.take (n * w) := fun n => by
    induction n with
    | zero => simp [topDown]
    | succ n ih =>
      rw [topDown] at ih ⊢
      rw [List.range_succ, List.map_append, List.flatten_append, ih, Nat.succ_mul, List.take_add]
      simp [rowOf]
  rw [hrows, List.take_of_length_le (by rw [hbuf, Nat.mul_comm])]

theorem topDown_getElem? (hy : y < h) : (topDown h row)[y]? = some (row y) := by simp [topDown, hy]

theorem mem_topDown (hb : b ∈ topDown h row) : ∃ y < h, row y = b := by simpa [topDown] using hb

@[simp] theorem topDown_length : (topDown h row).length = h := by simp [topDown]

theorem bottomUp_getElem? (hr : r < h) : (bottomUp h row)[r]? = some (row (h - 1 - r)) := by simp [bottomUp, hr]

theorem mem_bottomUp (hb : b ∈ bottomUp h row) : ∃ y < h, row y = b := by
  obtain ⟨r, hr, rfl⟩ : ∃ r < h, row (h - 1 - r) = b := by simpa [bottomUp] using hb
  exact ⟨h - 1 - r, by omega, rfl⟩

@[simp] theorem bottomUp_length : (bottomUp h row).length = h := by simp [bottomUp]

/-- Elements padded with zeros up to `n` of them. -/
theorem padded_getElem? {els : List Byte} {n : Nat} (hels : els.length = w) (hx : x < n) :
    (els ++ List.replicate (n - w) 0#8)[x]? = some (if x < w then els.getD x 0#8 else 0#8) := by
  by_cases hw : x < w
  · have hlt : x < els.length := hels.symm ▸ hw
    rw [List.getElem?_append_left hlt, if_pos hw, List.getElem?_eq_getElem hlt, List.getD_eq_getElem els 0#8 hlt]
  · rw [List.getElem?_append_right (by omega), if_neg hw, List.getElem?_replicate_of_lt (by omega)]

end Rows

/-! ### How a writer command ends (R290, spec/45_commands.md R352) -/

section Requests
variable {s t : State}

/-- A command that writes the Image out sends all its parts, consumes nothing and keeps all else. -/
theorem emitImage_of_answering {check : Image → Ports → Reply Unit} (parts : Image → List (List Byte))
    (ha : s.PortsAnswer) (hcheck : ∀ p, check s.image p = .ok () p) :
    ∃ t, emitImage (prologue s) check parts = .next t ∧ Ended t Status.success 0 (parts s.image).flatten ∧
      KeepsAll s t ∧ t.PortsAnswer := by
  have hsend := writeAll_of_answering (parts s.image) (p := (prologue s).ports) ha
  have hemit : emitImage (prologue s) check parts = conclude (prologue s)
      (writeAll (parts s.image) (prologue s).ports) noEffect := by
    rw [emitImage, prologue_image, hcheck, andThen_ok]
  rw [hsend, conclude_ok] at hemit
  exact ⟨_, hemit, by simp [Ended], endCommand_keepsAll .., fun d hd => ha d (List.mem_of_mem_drop hd)⟩

theorem exec_writePcx_of_ready (hready : s.Ready) :
    exec .writePcx s = emitImage (prologue s) requireImage (pcxParts s.cfg) :=
  runCommand_of_ready hready fun s => emitImage s requireImage (pcxParts s.cfg)

theorem exec_writePcx_of_answering (hready : s.Ready) (ha : s.PortsAnswer) (hrepr : s.image.repr ≠ .absent)
    (hwf : Memory.wf s.image) :
    ∃ t, exec .writePcx s = .next t ∧ Ended t Status.success 0 (pcxParts s.cfg s.image).flatten ∧
      KeepsAll s t ∧ t.PortsAnswer := by
  rw [exec_writePcx_of_ready hready]
  exact emitImage_of_answering _ ha fun p => requireImage_of_wf p hrepr hwf

end Requests

/-! ### The body sequence (R293, R294) -/

/-- The bytes of one plane segment of a body row. -/
def segmentLength (cfg : Config) (img : Image) : Nat :=
  match cfg.pcxLinePad with
  | .unpadded => img.w
  | .padToBpl => img.bplNat

/-- One plane segment: its elements and the padding. -/
def paddedSegment (cfg : Config) (img : Image) (els : List Byte) : List Byte := els ++ linePad cfg img

section Body
variable {cfg : Config} {img : Image} {els : List Byte} {x y : Nat}

theorem planeCount_eq (img : Image) : img.planeCount = if img.repr = .indexed then 1 else 3 := by
  unfold Image.planeCount
  cases img.repr <;> rfl

theorem linePad_eq (cfg : Config) (img : Image) :
    linePad cfg img = List.replicate (segmentLength cfg img - img.w) 0#8 := by
  unfold linePad segmentLength
  cases cfg.pcxLinePad <;> simp

theorem le_segmentLength (hbpl : img.w ≤ img.bplNat) : img.w ≤ segmentLength cfg img := by
  unfold segmentLength
  split
  · exact le_rfl
  · exact hbpl

theorem paddedSegment_length (hbpl : img.w ≤ img.bplNat) (hels : els.length = img.w) :
    (paddedSegment cfg img els).length = segmentLength cfg img := by
  rw [paddedSegment, linePad_eq, List.length_append, List.length_replicate, hels]
  exact Nat.add_sub_cancel' (le_segmentLength hbpl)

theorem paddedSegment_getElem? (hels : els.length = img.w) (hx : x < segmentLength cfg img) :
    (paddedSegment cfg img els)[x]? = some (if x < img.w then els.getD x 0#8 else 0#8) := by
  rw [paddedSegment, linePad_eq]
  exact padded_getElem? hels hx

theorem bodyRow_of_indexed (hr : img.repr = .indexed) (y : Nat) :
    bodyRow cfg img y = paddedSegment cfg img (rowOf img.idx img.w y) := by
  simp [bodyRow, paddedSegment, hr]

/-- A TRUECOLOR row is its three channels' segments. -/
theorem bodyRow_of_truecolor (hr : img.repr = .truecolor) (y : Nat) :
    bodyRow cfg img y = ([Sample.r, Sample.g, Sample.b].map fun channel =>
      paddedSegment cfg img ((rowOf img.pix img.w y).map channel)).flatten := by
  simp [bodyRow, paddedSegment, hr]

theorem channelSegment_length (hwf : Memory.wf img) (hbpl : img.w ≤ img.bplNat) (hy : y < img.h) :
    ∀ seg ∈ [Sample.r, Sample.g, Sample.b].map fun channel =>
      paddedSegment cfg img ((rowOf img.pix img.w y).map channel), seg.length = segmentLength cfg img := by
  obtain ⟨-, -, hpix⟩ := hwf
  simp only [List.forall_mem_map]
  exact fun channel _ => paddedSegment_length hbpl (by rw [List.length_map, rowOf_length hpix hy])

theorem bodyRow_length (habsent : img.repr ≠ .absent) (hwf : Memory.wf img) (hbpl : img.w ≤ img.bplNat)
    (hy : y < img.h) : (bodyRow cfg img y).length = img.planeCount * segmentLength cfg img := by
  obtain ⟨-, hidx, -⟩ := id hwf
  rw [planeCount_eq]
  cases hr : img.repr with
  | absent => exact absurd hr habsent
  | indexed =>
    rw [bodyRow_of_indexed hr, paddedSegment_length hbpl (rowOf_length hidx hy)]
    simp
  | truecolor =>
    rw [bodyRow_of_truecolor hr, flatten_length_of_rows (channelSegment_length hwf hbpl hy)]
    simp

theorem bodyRows_length (habsent : img.repr ≠ .absent) (hwf : Memory.wf img) (hbpl : img.w ≤ img.bplNat) :
    ∀ row ∈ topDown img.h (bodyRow cfg img), row.length = img.planeCount * segmentLength cfg img := by
  intro row hrow
  obtain ⟨y, hy, rfl⟩ := mem_topDown hrow
  exact bodyRow_length habsent hwf hbpl hy

theorem bodySeq_length (habsent : img.repr ≠ .absent) (hwf : Memory.wf img) (hbpl : img.w ≤ img.bplNat) :
    (bodySeq cfg img).length = img.planeCount * segmentLength cfg img * img.h := by
  rw [bodySeq, flatten_length_of_rows (bodyRows_length habsent hwf hbpl), topDown_length, Nat.mul_comm]

theorem bodySeq_getElem? (habsent : img.repr ≠ .absent) (hwf : Memory.wf img) (hbpl : img.w ≤ img.bplNat)
    (hy : y < img.h) (hx : x < img.planeCount * segmentLength cfg img) :
    (bodySeq cfg img)[y * (img.planeCount * segmentLength cfg img) + x]? = (bodyRow cfg img y)[x]? :=
  getElem?_flatten_of_rows (bodyRows_length habsent hwf hbpl) (topDown_getElem? hy) hx

/-- A byte of an INDEXED body. -/
theorem bodySeq_getElem?_of_indexed (hr : img.repr = .indexed) (hwf : Memory.wf img) (hbpl : img.w ≤ img.bplNat)
    (hy : y < img.h) (hx : x < segmentLength cfg img) :
    (bodySeq cfg img)[y * segmentLength cfg img + x]? =
      some (if x < img.w then img.idx.getD (y * img.w + x) 0#8 else 0#8) := by
  obtain ⟨-, hidx, -⟩ := id hwf
  have hplanes : img.planeCount * segmentLength cfg img = segmentLength cfg img := by
    rw [planeCount_eq, if_pos hr, Nat.one_mul]
  have hrow := bodySeq_getElem? (x := x) (cfg := cfg) (by simp [hr]) hwf hbpl hy (by rwa [hplanes])
  rw [hplanes, bodyRow_of_indexed hr, paddedSegment_getElem? (rowOf_length hidx hy) hx] at hrow
  rw [hrow]
  split
  · next hw => rw [rowOf_getD hw]
  · rfl

/-- A byte of a TRUECOLOR row: segment `i` holds one channel. -/
theorem bodyRow_getElem?_of_truecolor {i : Nat} {channel : Sample → Byte} (hr : img.repr = .truecolor)
    (hwf : Memory.wf img) (hbpl : img.w ≤ img.bplNat) (hy : y < img.h) (hx : x < segmentLength cfg img)
    (hi : [Sample.r, Sample.g, Sample.b][i]? = some channel) :
    (bodyRow cfg img y)[i * segmentLength cfg img + x]? =
      some (if x < img.w then channel ((rowOf img.pix img.w y).getD x Sample.zero) else 0#8) := by
  obtain ⟨-, -, hpix⟩ := id hwf
  have hrow := rowOf_length hpix hy
  have hlen : ((rowOf img.pix img.w y).map channel).length = img.w := by rw [List.length_map, hrow]
  have hseg := getElem?_flatten_of_rows (channelSegment_length (cfg := cfg) hwf hbpl hy)
    (show _ = some (paddedSegment cfg img ((rowOf img.pix img.w y).map channel)) by rw [List.getElem?_map, hi]; rfl) hx
  rw [bodyRow_of_truecolor hr, hseg, paddedSegment_getElem? hlen hx]
  split
  · next hw => rw [map_getD_of_lt (by rwa [hrow])]
  · rfl

/-- A byte of a TRUECOLOR body. -/
theorem bodySeq_getElem?_of_truecolor {i : Nat} {channel : Sample → Byte} (hr : img.repr = .truecolor)
    (hwf : Memory.wf img) (hbpl : img.w ≤ img.bplNat) (hy : y < img.h) (hx : x < segmentLength cfg img)
    (hi : [Sample.r, Sample.g, Sample.b][i]? = some channel) :
    (bodySeq cfg img)[y * (3 * segmentLength cfg img) + i * segmentLength cfg img + x]? =
      some (if x < img.w then channel (img.pix.getD (y * img.w + x) Sample.zero) else 0#8) := by
  have hi3 : i < 3 := (List.getElem?_eq_some_iff.mp hi).1
  have hplanes : img.planeCount = 3 := by rw [planeCount_eq, hr, if_neg nofun]
  have hin : i * segmentLength cfg img + x < img.planeCount * segmentLength cfg img := by
    have hle : (i + 1) * segmentLength cfg img ≤ 3 * segmentLength cfg img := Nat.mul_le_mul_right _ hi3
    rw [Nat.succ_mul] at hle
    rw [hplanes]
    omega
  have hrow := bodySeq_getElem? (by simp [hr]) hwf hbpl hy hin
  rw [hplanes, bodyRow_getElem?_of_truecolor hr hwf hbpl hy hx hi] at hrow
  rw [Nat.add_assoc, hrow]
  split
  · next hw => rw [rowOf_getD hw]
  · rfl

/-- The chunk is one row's bytes, where a row has BPL bytes a segment or none is cut (R294). -/
theorem bodyChunk_eq (hbpl : img.w ≤ img.bplNat) :
    bodyChunk cfg img = segmentLength cfg img * img.planeCount := by
  unfold bodyChunk segmentLength
  cases cfg.pcxLinePad
  · exact congrArg (· * _) (min_eq_left hbpl)
  · rfl

end Body

/-! ### The header (R157) -/

/-- The header before the table: the fixed fields, the coordinates and the resolutions. -/
def headerFront (cfg : Config) (img : Image) : List Byte :=
  [cfg.pcxHdrWrite.sig, cfg.pcxHdrWrite.ver, cfg.pcxHdrWrite.enc, 8#8, 0#8, 0#8, 0#8, 0#8] ++ toLE16 (img.w - 1)
    ++ toLE16 (img.h - 1) ++ toLE16 cfg.pcxHdrWrite.hres.toNat ++ toLE16 cfg.pcxHdrWrite.vres.toNat

/-- The header between the table and the filler. -/
def headerBack (cfg : Config) (img : Image) : List Byte :=
  [cfg.pcxHdrWrite.reserved, BitVec.ofNat 8 img.planeCount] ++ toLE16 img.bplNat
    ++ toLE16 cfg.pcxHdrWrite.palinfo.toNat ++ toLE16 cfg.pcxHdrWrite.hscreen.toNat
    ++ toLE16 cfg.pcxHdrWrite.vscreen.toNat

section Header
variable {cfg : Config} {img : Image}

theorem headerBytes_eq (cfg : Config) (img : Image) :
    headerBytes cfg img = headerFront cfg img ++ (cfg.pcxHdrWrite.fallback ++
      (headerBack cfg img ++ cfg.pcxHdrWrite.filler)) := by
  simp [headerBytes, headerFront, headerBack, toLE16]

theorem headerFront_length : (headerFront cfg img).length = 16 := rfl
theorem headerBack_length : (headerBack cfg img).length = 10 := rfl

/-- The header from offset 64 on. -/
theorem headerBytes_drop_64 (hfb : cfg.pcxHdrWrite.fallback.length = 48) :
    (headerBytes cfg img).drop 64 = headerBack cfg img ++ cfg.pcxHdrWrite.filler := by
  rw [headerBytes_eq, show 64 = 16 + 48 from rfl, ← List.drop_drop, List.drop_left' headerFront_length,
    List.drop_left' hfb]

theorem headerBytes_drop_16 :
    (headerBytes cfg img).drop 16 = cfg.pcxHdrWrite.fallback ++ (headerBack cfg img ++ cfg.pcxHdrWrite.filler) := by
  rw [headerBytes_eq, List.drop_left' headerFront_length]

theorem headerBytes_length (hcfg : cfg.Ok) : (headerBytes cfg img).length = 128 := by
  obtain ⟨-, -, -, -, hfb, hfiller⟩ := hcfg
  rw [headerBytes_eq]
  simp [headerFront_length, headerBack_length, hfb, hfiller]

/-- The whole file (R292): header, encoded body, and the palette trailer of an INDEXED Image. -/
theorem pcxParts_flatten (cfg : Config) (img : Image) :
    (pcxParts cfg img).flatten = headerBytes cfg img ++ rleEncode (bodySeq cfg img) (bodyChunk cfg img) ++
      (if img.repr = .indexed then paletteTrailer img else []) := by
  unfold pcxParts
  cases img.repr <;> simp

end Header

end Sys2Proof.Machine

namespace Sys2Proof.Proofs

open Sys2Proof Sys2Proof.Machine Host

/-- Settles O36: the file's parts in order, and the header's fields at their offsets. -/
theorem writePcxOutputsFile : Obligations.WritePcxOutputsFile := by
  unfold Obligations.WritePcxOutputsFile
  intro s hready ha hrepr hwf hcfg
  obtain ⟨t, hexec, hended, hkeeps, -⟩ := exec_writePcx_of_answering hready ha hrepr hwf
  obtain ⟨-, -, -, -, hfb, -⟩ := id hcfg
  have hchunk : bodyChunk s.cfg s.image =
      (match s.cfg.pcxLinePad with
        | .unpadded => min s.image.w s.image.bplNat
        | .padToBpl => s.image.bplNat) * (if s.image.repr = .indexed then 1 else 3) := by
    rw [bodyChunk, planeCount_eq]
    cases s.cfg.pcxLinePad <;> rfl
  have hplanes : BitVec.ofNat 8 s.image.planeCount = if s.image.repr = .indexed then 1#8 else 3#8 := by
    rw [planeCount_eq]
    split <;> rfl
  have h64 := headerBytes_drop_64 (img := s.image) hfb
  refine ⟨t, headerBytes s.cfg s.image, hexec, ?_, headerBytes_length hcfg, ?_, ?_, ?_, ?_, ?_, ?_, hkeeps⟩
  · rw [pcxParts_flatten, hchunk] at hended
    exact hended
  · rw [headerBytes_eq]; rfl
  · rw [headerBytes_eq]; rfl
  · rw [headerBytes_drop_16, List.take_left' hfb]
  · rw [h64, ← hplanes]; rfl
  · rw [show 68 = 64 + 4 from rfl, ← List.drop_drop, h64]; rfl
  · rw [show 74 = 64 + 10 from rfl, ← List.drop_drop, h64, List.drop_left' headerBack_length]

/-- Settles O37: a row's place in the sequence, and a segment's place in its row. -/
theorem bodySequenceLayout : Obligations.BodySequenceLayout := by
  unfold Obligations.BodySequenceLayout
  intro cfg img seg habsent hwf hbpl hseg
  obtain rfl : seg = segmentLength cfg img := hseg.trans rfl
  refine ⟨bodySeq_length habsent hwf hbpl, fun y x hy hx =>
    ⟨fun hr => bodySeq_getElem?_of_indexed hr hwf hbpl hy hx, fun hr => ⟨?_, ?_, ?_⟩⟩⟩
  · simpa using bodySeq_getElem?_of_truecolor (i := 0) (cfg := cfg) hr hwf hbpl hy hx rfl
  · simpa using bodySeq_getElem?_of_truecolor (i := 1) (cfg := cfg) hr hwf hbpl hy hx rfl
  · exact bodySeq_getElem?_of_truecolor (i := 2) hr hwf hbpl hy hx rfl

end Sys2Proof.Proofs
end

section
/-! PROOFS. A body that stages an Image, on the codes of its scanlines (spec/41_rle_decoder.md R184, R190 to R192,
spec/43_rle_encoder.md R268): where no code crosses a scanline's end, every scanline is emitted as it was encoded. -/

namespace Sys2Proof.Machine

open Host

section Staging
variable {cfg : Config} {s : State} {e e' : Engine} {line line' left rest out : List Byte} {rows : List (List Byte)}
  {p q : Ports} {i : Instr}

/-! ### The rows of the staged Image -/

/-- The pixels of a planar scanline lie in its first 2 BPL + W positions. -/
theorem planarRow_take (w bpl : Nat) (line : List Byte) :
    planarRow w bpl (line.take (2 * bpl + w)) = planarRow w bpl line := by
  refine List.map_congr_left fun x hx => ?_
  have hx : x < w := List.mem_range.mp hx
  rw [byteAt_take (by omega), byteAt_take (by omega), byteAt_take (by omega)]

/-- A write at the end of a buffer appends. -/
theorem memWrite_at_end {α : Type} {bound : Nat} {buf vs out : List α}
    (h : memWrite bound buf buf.length vs = some out) : out = buf ++ vs := by
  obtain ⟨-, -, rfl⟩ := memWrite_eq_some.mp h
  simp

/-- An emitted scanline is the next row of the consumer's buffer. -/
theorem emitLine_appends (h : emitLine e line p = .ok e' q) (hst : e.Staged) :
    (e.consumer = .indexed → e'.staged.idx = e.staged.idx ++ line.take e.staged.w) ∧
    (e.consumer = .planar → e'.staged.pix = e.staged.pix ++ planarRow e.staged.w e.staged.bplNat line) := by
  refine ⟨fun hc => ?_, fun hc => ?_⟩
  · simp only [emitLine, hc, andThen_eq_ok, inRange_eq_ok] at h
    obtain ⟨row, _, ⟨hread, rfl⟩, idx, _, ⟨hwrite, rfl⟩, he⟩ := h
    obtain ⟨-, -, rfl⟩ := memRead_eq_some.mp hread
    obtain ⟨rfl, rfl⟩ := Reply.ok.inj he
    rw [← hst.1 hc] at hwrite
    exact memWrite_at_end hwrite
  · simp only [emitLine, hc, andThen_eq_ok, inRange_eq_ok] at h
    obtain ⟨segs, _, ⟨hread, rfl⟩, pix, _, ⟨hwrite, rfl⟩, he⟩ := h
    obtain ⟨-, -, rfl⟩ := memRead_eq_some.mp hread
    obtain ⟨rfl, rfl⟩ := Reply.ok.inj he
    rw [← hst.2 hc, List.drop_zero, planarRow_take] at hwrite
    exact memWrite_at_end hwrite

/-- Of a full scanline whose run is over, one row is staged and no more. -/
theorem settle_staged_of_lineEnd {n : Nat} (h : settle cfg (n + 1) e line p = .ok (e', line') q)
    (hx : e.x = e.lineLen) (hrem : e.rem = 0) (hs : e.stopped = false) (hpos : 0 < e.lineLen) :
    ∃ e₁ p₁, emitLine e line p = .ok e₁ p₁ ∧ e'.staged = e₁.staged := by
  obtain ⟨hlt, -⟩ | ⟨e₁, p₁, hemit, ⟨-, rfl⟩ | ⟨hn, e₂, line₂, hstart, hset⟩⟩ := settle_succ_ok h
  · omega
  · exact ⟨e₁, p₁, hemit, rfl⟩
  · have heq := (emitLine_ok hemit).2.1
    rw [startLine_of_no_run cfg (by rw [heq]; exact hrem)] at hstart
    obtain ⟨rfl, rfl⟩ := Prod.mk.inj (Option.some.inj hstart)
    rw [settle_at_boundary cfg hn _ _ (by rw [heq]; exact hpos) (by rw [heq]; exact hs)] at hset
    obtain ⟨rfl, -⟩ := Prod.mk.inj (Reply.ok.inj hset).1
    exact ⟨e₁, p₁, hemit, rfl⟩

/-! ### What a staging body has decoded -/

/-- A body that stages an Image has decoded `out` on answering ports: the whole scanlines `rows` of it were emitted,
and the present scanline begins with the rest. -/
structure Engine.Stages (e : Engine) (line : List Byte) (p : Ports) (rows : List (List Byte)) (out : List Byte) :
    Prop where
  answering : p.Answering
  count : rows.length = e.y
  row_length : ∀ row ∈ rows, row.length = e.lineLen
  idx : e.consumer = .indexed → e.staged.idx = rows.flatMap (·.take e.staged.w)
  pix : e.consumer = .planar → e.staged.pix = rows.flatMap (planarRow e.staged.w e.staged.bplNat)
  eq : rows.flatten ++ e.present line = out

/-- The counts are those of a raw body that has sent the same scanlines. -/
theorem decoded_of_stages (h : e.Stages line p rows out) :
    e.Decoded line { p with output := rows.flatten } out :=
  ⟨h.answering, by rw [flatten_length_of_rows h.row_length, h.count], h.eq⟩

/-- At the end of a scanline whose run is over, the scanline is emitted. -/
theorem settle_stages (hsuits : e.Suits s) (hraw : e.consumer ≠ .raw) (hfits : e.Fits line) (hrem : e.rem = 0)
    (hs : e.stopped = false) (hpos : 0 < e.lineLen) (h : e.Stages line p rows out) :
    ∃ e' line' rows', settle cfg (e.lines - e.y) e line p = .ok (e', line') p ∧ e'.Stages line' p rows' out := by
  have hy := hfits.y_lt
  by_cases hx : e.x < e.lineLen
  · exact ⟨e, line, rows, settle_at_boundary cfg (by omega) line p hx hs, h⟩
  · have hx : e.x = e.lineLen := le_antisymm hfits.x_le (Nat.not_lt.mp hx)
    obtain ⟨e', line', hsettle, hy', hx'⟩ := settle_of_lineEnd (cfg := cfg) (ds := p.draws) hsuits hfits.staged hy hx
      hrem hs hpos hfits.line_length (by rw [writes_of_not_raw hraw]; rfl)
    rw [sends_of_not_raw hraw, List.append_nil] at hsettle
    obtain ⟨n, hn⟩ : ∃ n, e.lines - e.y = n + 1 := ⟨e.lines - e.y - 1, by omega⟩
    obtain ⟨e₁, p₁, hemit, hstaged⟩ := settle_staged_of_lineEnd (hn ▸ hsettle) hx hrem hs hpos
    obtain ⟨hidx, hpix⟩ := emitLine_appends hemit hfits.staged
    have hsame := settle_sameBody hsettle
    have hw : e'.staged.w = e.staged.w := congrArg BitVec.toNat hsame.width
    have hb : e'.staged.bplNat = e.staged.bplNat := congrArg BitVec.toNat hsame.bpl
    refine ⟨e', line', rows ++ [line], hsettle, h.answering, ?_, ?_, fun hc => ?_, fun hc => ?_, ?_⟩
    · rw [hy', List.length_append, h.count]; rfl
    · rw [hsame.lineLen]
      exact List.forall_mem_append.mpr ⟨h.row_length, by simpa using hfits.line_length⟩
    · have hc : e.consumer = .indexed := hsame.consumer ▸ hc
      rw [hw, hstaged, hidx hc, h.idx hc, List.flatMap_append, List.flatMap_singleton]
    · have hc : e.consumer = .planar := hsame.consumer ▸ hc
      rw [hw, hb, hstaged, hpix hc, h.pix hc, List.flatMap_append, List.flatMap_singleton]
    · have hpresent : e'.present line' = [] := by
        unfold Engine.present
        split
        · next hlt => rw [hx' (by rw [← hy', ← hsame.lines]; exact hlt), List.take_zero]
        · rfl
      have heq := h.eq
      rw [Engine.present, if_pos hy, hx, ← hfits.line_length, List.take_length] at heq
      rw [hpresent, List.append_nil, List.flatten_append, List.flatten_singleton, heq]

/-- A code that ends in its scanline adds the bytes it stands for. -/
theorem codeReply_stages (hsuits : e.Suits s) (hraw : e.consumer ≠ .raw) (hset : e.Settled line)
    (h : e.Stages line p rows out) (hy : e.y < e.lines) (hcode : decodeCode p.input = .ok (i, left))
    (hfit : out.length / e.lineLen = (out.length + codeCount i - 1) / e.lineLen) :
    ∃ e' line' q rows', codeReply cfg e line p = .ok (e', line') q ∧ q.input = left ∧
      q.cursor + left.length = p.cursor + p.input.length ∧ e'.Stages line' q rows' (out ++ codesExpand [i]) := by
  have hat := hset.atCode hy
  have hpos := length_of_decoded (decoded_of_stages h) hy hat
  obtain ⟨hx, -, hs, hl⟩ := id hat
  rw [hpos] at hfit
  have hle := add_le_of_div_eq hx hfit
  obtain ⟨ds, hds, hfetch⟩ := fetchCode_of_answering h.answering hcode
  obtain ⟨e₁, line₁, hwrite⟩ := writeCopies_exists (e := e.load i) hsuits.1 hx.le hl
  obtain ⟨hcount, hload⟩ := pending_load e i line
  obtain ⟨hx₁, hrem₁, hpending₁⟩ := writeCopies_pending hwrite (show e.x ≤ line.length by omega)
  obtain ⟨-, -, hlineLen₁, -, hy₁, hlines₁, -, hcons₁, hstaged₁, hs₁, -⟩ := writeCopies_bounds hwrite hx.le hl
  rw [hcount] at hx₁ hrem₁
  simp only [Engine.load] at hx₁ hrem₁ hlineLen₁ hy₁ hlines₁ hcons₁ hstaged₁ hs₁
  have hrem : e₁.rem = 0 := by omega
  have hdone : CodeDone e line e₁ line₁ := .inr ⟨_, _, hwrite⟩
  have hstages : e₁.Stages line₁ { p.consumedTo left with draws := ds } rows (out ++ codesExpand [i]) := by
    refine ⟨hds, hy₁ ▸ h.count, hlineLen₁ ▸ h.row_length, ?_, ?_, ?_⟩
    · rw [hcons₁, hstaged₁]; exact h.idx
    · rw [hcons₁, hstaged₁]; exact h.pix
    · have heq := h.eq
      rw [Engine.present, if_pos hy] at heq
      rw [hload, Engine.pending, hrem, List.replicate_zero, List.append_nil] at hpending₁
      rw [Engine.present, if_pos (by omega), hpending₁, ← List.append_assoc, heq]
  obtain ⟨e', line', rows', hsettle, hstages'⟩ := settle_stages (cfg := cfg)
    (suits_of_sameBody (codeDone_sameBody hdone) hsuits) (hcons₁ ▸ hraw) (codeDone_fits hdone hy hat hset.staged) hrem
    (hs₁.trans hs) (by omega) hstages
  refine ⟨e', line', _, rows', ?_, rfl, ?_, hstages'⟩
  · simp only [codeReply, hfetch, andThen_ok, hwrite, inRange_some]
    exact hsettle
  · have hless := decodeCode_length hcode
    show p.cursor + (p.input.length - left.length) + left.length = _
    omega

/-- Canonical codes that stand for all the positions left, none across a scanline's end, are decoded to the end of the
body, and the bytes after them are left. -/
theorem bodyReply_stages {n : Nat} {codes : List Instr} (hsuits : e.Suits s) (hraw : e.consumer ≠ .raw)
    (hset : e.Settled line) (h : e.Stages line p rows out) (hcanonical : ∀ i ∈ codes, CanonicalCode i)
    (hin : p.input = codes.flatMap codeBytes ++ rest) (hn : p.input.length ≤ n)
    (hlen : out.length + (codesExpand codes).length = e.lines * e.lineLen)
    (hfit : WithinChunks e.lineLen out.length codes) :
    ∃ e' line' q rows', bodyReply cfg n e line p = .ok (e', line') q ∧ q.input = rest ∧
      q.cursor + rest.length = p.cursor + p.input.length ∧ e'.Stages line' q rows' (out ++ codesExpand codes) := by
  induction codes generalizing n e line p rows out with
  | nil =>
    obtain ⟨hover, -⟩ := over_of_decoded hset (decoded_of_stages h) hlen
    exact ⟨e, line, p, rows, bodyReply_of_over n line p hover, hin, by rw [hin]; rfl,
      (List.append_nil out).symm ▸ h⟩
  | cons i codes ih =>
    have hi := hcanonical i (by simp)
    have hcount := hi.count_bounds.1
    rw [codesExpand_cons, List.length_append] at hlen
    have hcode : decodeCode p.input = .ok (i, codes.flatMap codeBytes ++ rest) := by
      rw [hin, List.flatMap_cons, List.append_assoc]
      exact decodeCode_codeBytes hi.wellFormed hi.codeForm _
    have hless := decodeCode_length hcode
    have hcountLen : (codesExpand [i]).length = codeCount i := rfl
    have hy := running_of_decoded hset (decoded_of_stages h) (by omega)
    obtain ⟨hcross, hwithin⟩ := hfit
    obtain ⟨e₁, line₁, q₁, rows₁, hreply, hin₁, hcursor₁, h₁⟩ :=
      codeReply_stages (cfg := cfg) hsuits hraw hset h hy hcode hcross
    have hsame := codeReply_sameBody hreply
    obtain ⟨n, rfl⟩ : ∃ m, n = m + 1 := ⟨n - 1, by omega⟩
    obtain ⟨e', line', q, rows', hbody, hrest, hcursor, h'⟩ := ih (n := n) (suits_of_sameBody hsame hsuits)
      (hsame.consumer ▸ hraw) (codeReply_settled hy hset hreply) h₁
      (fun i hi => hcanonical i (List.mem_cons_of_mem _ hi)) hin₁ (by rw [hin₁]; omega)
      (by rw [List.length_append, hsame.lines, hsame.lineLen]; omega)
      (by rw [List.length_append, hsame.lineLen]; exact hwithin)
    refine ⟨e', line', q, rows', ?_, hrest, ?_, ?_⟩
    · rw [bodyReply, if_pos hy, hreply, andThen_ok, hbody]
    · rw [hcursor, hin₁, hcursor₁]
    · rw [codesExpand_cons i codes, ← List.append_assoc]
      exact h'

/-- Rows of one length are determined by their bytes in order. -/
theorem eq_of_flatten_eq {rows' : List (List Byte)} {k : Nat} (hk : 0 < k) (hrows' : ∀ row ∈ rows', row.length = k)
    (hrows : ∀ row ∈ rows, row.length = k) (h : rows'.flatten = rows.flatten) : rows' = rows := by
  have hlen := congrArg List.length h
  rw [flatten_length_of_rows hrows', flatten_length_of_rows hrows] at hlen
  rw [List.eq_iff_flatten_eq, List.map_congr_left hrows', List.map_congr_left hrows, List.map_const', List.map_const',
    Nat.eq_of_mul_eq_mul_right hk hlen]
  exact ⟨h, rfl⟩

/-- A staging body on the encoding of its scanlines, in chunks of one scanline, stages them, and the bytes after the
encoding are left. -/
theorem runBody_of_encoded (h : e.Enters s) (hraw : e.consumer ≠ .raw) (ha : p.Answering)
    (hcount : rows.length = e.lines) (hrows : ∀ row ∈ rows, row.length = e.lineLen)
    (hin : p.input = rleEncode rows.flatten e.lineLen ++ rest) :
    ∃ e' line' q, runBody cfg e p = .ok (e', line') q ∧ q.input = rest ∧
      q.cursor + rest.length = p.cursor + p.input.length ∧ q.Answering ∧
      (e.consumer = .indexed → e'.staged.idx = rows.flatMap (·.take e.staged.w)) ∧
      (e.consumer = .planar → e'.staged.pix = rows.flatMap (planarRow e.staged.w e.staged.bplNat)) := by
  obtain ⟨codes, hencode, hexpand, hcanonical, hchunks⟩ := rleEncode_codes h.lineLen_pos rows.flatten
  have hstart : e.Stages (List.replicate e.lineLen e.fill) p [] [] := by
    obtain ⟨hidx, hpix⟩ := h.staged
    rw [h.y_eq, Nat.zero_mul] at hidx hpix
    refine ⟨ha, h.y_eq.symm, nofun, fun hc => List.eq_nil_of_length_eq_zero (hidx hc),
      fun hc => List.eq_nil_of_length_eq_zero (hpix hc), ?_⟩
    rw [Engine.present, if_pos (h.y_eq ▸ h.lines_pos), h.x_eq]
    rfl
  obtain ⟨e', line', q, rows', hbody, hrest, hcursor, hstages⟩ := bodyReply_stages (cfg := cfg) h.suits hraw
    (settled_of_enters h) hstart hcanonical (hencode ▸ hin) (Nat.le_succ _)
    (by rw [hexpand, flatten_length_of_rows hrows, hcount]; exact Nat.zero_add _) hchunks
  have hrun : runBody cfg e p = .ok (e', line') q := by
    rw [runBody, enterBody_of_enters cfg h, andThen_ok, hbody]
  obtain ⟨hover, hsame⟩ := runBody_ends hrun
  have heq := hstages.eq
  rw [Engine.present, if_neg hover, List.append_nil, hexpand, List.nil_append] at heq
  obtain rfl := eq_of_flatten_eq h.lineLen_pos (hsame.lineLen ▸ hstages.row_length) hrows heq
  have hw : e'.staged.w = e.staged.w := congrArg BitVec.toNat hsame.width
  have hb : e'.staged.bplNat = e.staged.bplNat := congrArg BitVec.toNat hsame.bpl
  refine ⟨e', line', q, hrun, hrest, hcursor, hstages.answering, fun hc => ?_, fun hc => ?_⟩
  · rw [hstages.idx (hsame.consumer.trans hc), hw]
  · rw [hstages.pix (hsame.consumer.trans hc), hw, hb]

end Staging

end Sys2Proof.Machine
end

section
/-! PROOFS. The round trip (spec/44_writers.md R296): the Header Reader on the writer's header, DECODE's body on the
encoded rows, and the Palette Resolver on the trailer give the Image back. -/

namespace Sys2Proof.Machine

open Host

/-! ### The writer's header as the Header Reader sees it (R143, R157) -/

/-- `le16` reads what `LE16` wrote (R19). -/
theorem le16_toLE16 (v : Nat) : le16 (byteAt (toLE16 v) 0) (byteAt (toLE16 v) 1) = BitVec.ofNat 16 v := by
  apply BitVec.eq_of_toNat_eq
  rw [le16_toNat]
  simp only [toLE16, byteAt, List.getD_cons_zero, List.getD_cons_succ, BitVec.toNat_ofNat,
    Nat.shiftRight_eq_div_pow]
  omega

section Header
variable {cfg : Config} {img : Image} {rest : List Byte} {k : Nat}

theorem byteAt_headerBytes_front (hk : k < 16) :
    byteAt ((headerBytes cfg img ++ rest).take 68) k = byteAt (headerFront cfg img) k := by
  rw [byteAt_take (by omega), headerBytes_eq, List.append_assoc, byteAt, byteAt, List.getD_append _ _ _ _ hk]

theorem byteAt_headerBytes_back (hcfg : cfg.Ok) (hk : k < 4) :
    byteAt ((headerBytes cfg img ++ rest).take 68) (64 + k) = byteAt (headerBack cfg img) k := by
  obtain ⟨-, -, -, -, hfb, -⟩ := id hcfg
  rw [byteAt_take (by omega), ← byteAt_drop, List.drop_append_of_le_length (by rw [headerBytes_length hcfg]; omega),
    headerBytes_drop_64 hfb, List.append_assoc, byteAt, byteAt,
    List.getD_append _ _ _ _ (by rw [headerBack_length]; omega)]

/-- A header with the geometry and the plane count of an Image. -/
structure Header.Describes (img : Image) (hdr : Header) : Prop where
  bpp : hdr.bpp = 8#8
  planes : hdr.planes = BitVec.ofNat 8 img.planeCount
  width : hdr.width = img.w
  height : hdr.height = img.h
  bpl : hdr.bpl = img.bpl

/-- A coordinate pair from 0 to `v - 1` spans `v` (R147). -/
theorem span_eq {v : Nat} (hv : 1 ≤ v) (hv16 : v ≤ 65536) :
    ((BitVec.ofNat 16 (v - 1)).toNat : Int) - ((BitVec.ofNat 16 0).toNat : Int) + 1 = v := by
  rw [BitVec.toNat_ofNat, BitVec.toNat_ofNat, Nat.mod_eq_of_lt (by omega)]
  omega

/-- The fields that R157 writes are those that R143 reads. -/
theorem parseHeader_describes {bytes : List Byte} (hw : 1 ≤ img.w) (hw16 : img.w ≤ 65536) (hh : 1 ≤ img.h)
    (hh16 : img.h ≤ 65536) (hfront : ∀ k < 16, byteAt bytes k = byteAt (headerFront cfg img) k)
    (hback : ∀ k < 4, byteAt bytes (64 + k) = byteAt (headerBack cfg img) k) :
    (parseHeader bytes).Describes img := by
  have hcoordinate : ∀ {k v}, k + 1 < 16 → byteAt (headerFront cfg img) k = byteAt (toLE16 v) 0 →
      byteAt (headerFront cfg img) (k + 1) = byteAt (toLE16 v) 1 →
      le16 (byteAt bytes k) (byteAt bytes (k + 1)) = BitVec.ofNat 16 v := fun {k v} hk h0 h1 => by
    rw [hfront k (by omega), hfront (k + 1) hk, h0, h1, le16_toLE16]
  have hstartX : (parseHeader bytes).startX = BitVec.ofNat 16 0 := hcoordinate (k := 4) (by omega) rfl rfl
  have hstartY : (parseHeader bytes).startY = BitVec.ofNat 16 0 := hcoordinate (k := 6) (by omega) rfl rfl
  have hendX : (parseHeader bytes).endX = BitVec.ofNat 16 (img.w - 1) := hcoordinate (k := 8) (by omega) rfl rfl
  have hendY : (parseHeader bytes).endY = BitVec.ofNat 16 (img.h - 1) := hcoordinate (k := 10) (by omega) rfl rfl
  have hbpl : (parseHeader bytes).bpl = BitVec.ofNat 16 img.bplNat := by
    rw [← le16_toLE16]
    exact congrArg₂ le16 (hback 2 (by omega)) (hback 3 (by omega))
  refine ⟨hfront 3 (by omega), hback 1 (by omega), ?_, ?_, hbpl.trans (by simp [Image.bplNat])⟩
  · rw [Header.width, hstartX, hendX, span_eq hw hw16]
  · rw [Header.height, hstartY, hendY, span_eq hh hh16]

theorem headerBytes_describes (hcfg : cfg.Ok) (hgeo : geometryOk cfg img.w img.h img.bplNat) (rest : List Byte) :
    (parseHeader ((headerBytes cfg img ++ rest).take 68)).Describes img := by
  obtain ⟨hw, hh, hwb, -, hh16⟩ := hgeo
  have hbpl16 : img.bplNat < 65536 := img.bpl.isLt
  exact parseHeader_describes hw (by omega) hh (by omega) (fun _ => byteAt_headerBytes_front)
    fun _ => byteAt_headerBytes_back hcfg

theorem planes_eq_of_describes {hdr : Header} (h : hdr.Describes img) :
    hdr.planes = if img.repr = .indexed then 1#8 else 3#8 := by
  rw [h.planes, planeCount_eq]
  split <;> rfl

theorem accepted_of_describes {hdr : Header} (hgeo : geometryOk cfg img.w img.h img.bplNat)
    (h : hdr.Describes img) : hdr.Accepted cfg := by
  obtain ⟨hw, hh, hwb, harea, hh16⟩ := hgeo
  unfold Header.Accepted
  rw [h.width, h.height, h.bpl, planes_eq_of_describes h]
  refine ⟨h.bpp, ?_, by omega, by omega, Int.ofNat_le.mpr hwb, by exact_mod_cast harea, by omega⟩
  split
  · exact .inl rfl
  · exact .inr rfl

end Header

/-! ### The Palette Resolver on the trailer (R223, R295) -/

section Palette
variable {pal : List Sample} {p : Ports}

theorem byteAt_flatMap_rgb {i k : Nat} {c : Sample} (hi : pal[i]? = some c) (hk : k < 3) :
    byteAt (pal.flatMap rgb) (3 * i + k) = byteAt (rgb c) k := by
  rw [← byteAt_drop, ← byteAt_take hk, take_drop_flatMap (f := rgb) (fun _ => rfl) hi]

theorem alpha_of_alphaForced {i : Nat} {c : Sample} (h : alphaForced pal) (hi : pal[i]? = some c) :
    c.a = if i = 0 then 0#8 else 255#8 := by
  obtain ⟨hfirst, hrest⟩ := h
  cases i with
  | zero => rwa [List.getD_eq_getElem?_getD, hi] at hfirst
  | succ i => exact hrest c (List.mem_of_getElem? (by rwa [List.getElem?_tail]))

/-- The triples of a palette with R225's alphas give it back. -/
theorem paletteOfBytes_flatMap_rgb (hlen : pal.length = 256) (halpha : alphaForced pal) :
    paletteOfBytes (pal.flatMap rgb) = pal := by
  refine List.ext_getElem? fun i => ?_
  by_cases hi : i < 256
  · obtain ⟨c, hc⟩ : ∃ c, pal[i]? = some c := ⟨_, List.getElem?_eq_getElem (hlen.symm ▸ hi)⟩
    rw [paletteOfBytes, forceAlpha_getElem?, List.getElem?_map, rgbTriples_getElem? _ hi, hc,
      show byteAt (pal.flatMap rgb) (3 * i) = _ from byteAt_flatMap_rgb (k := 0) hc (by omega),
      byteAt_flatMap_rgb (k := 1) hc (by omega),
      byteAt_flatMap_rgb (k := 2) hc (by omega), ← alpha_of_alphaForced halpha hc]
    rfl
  · rw [List.getElem?_eq_none (by rw [paletteOfBytes_length]; omega), List.getElem?_eq_none (by omega)]

theorem readBytesOr_of_enough {n : Nat} (ha : p.Answering) (hn : n ≤ p.input.length) :
    ∃ q, readBytesOr n p = .ok (p.input.take n) q ∧ q.cursor = p.cursor + n := by
  induction n generalizing p with
  | zero => exact ⟨p, rfl, rfl⟩
  | succ n ih =>
    obtain ⟨b, rest, hin⟩ := List.exists_cons_of_length_pos (show 0 < p.input.length by omega)
    obtain ⟨q, hread, hcursor⟩ := ih (p := { p.answered with input := rest, cursor := p.cursor + 1 })
      (answered_answering ha) (by simpa [hin] using hn)
    refine ⟨q, ?_, by rw [hcursor]; simp only; omega⟩
    rw [readBytesOr, readByte_of_cons ha hin, andThen_ok, hread, andThen_ok, hin]
    rfl

/-- A marker and its table to the end of the stream. -/
theorem resolvePalette_of_table {table : List Byte} (fb : List Rgb) (ha : p.Answering) (hin : p.input = 0x0C#8 :: table)
    (hlen : table.length = 768) :
    ∃ q, resolvePalette fb p = .ok (paletteOfBytes table, true) q ∧ q.cursor = p.cursor + 769 := by
  have hscan : scanForMarker p = .ok true { p.answered with input := table, cursor := p.cursor + 1 } := by
    rw [scanForMarker, scanLoop, readByte_of_cons ha hin]
    rfl
  obtain ⟨q, hread, hcursor⟩ := readBytesOr_of_enough (n := 768)
    (p := { p.answered with input := table, cursor := p.cursor + 1 }) (answered_answering ha) hlen.ge
  refine ⟨q, ?_, hcursor⟩
  rw [resolvePalette, hscan, andThen_ok, if_pos rfl, hread, andThen_ok, List.take_of_length_le hlen.le]

theorem flatMap_rgb_length (hlen : pal.length = 256) : (pal.flatMap rgb).length = 768 := by
  rw [List.flatMap_def, flatten_length_of_rows (k := 3) (by simp [rgb]), List.length_map, hlen]

end Palette

/-! ### The body rows as scanlines (R190, R229, R293) -/

/-- A pixel as DECODE of a TRUECOLOR file gives it back (R229, R296). -/
def Sample.withFullAlpha (p : Sample) : Sample := { p with a := 255#8 }

section BodyRows
variable {cfg : Config} {img : Image} {w h y : Nat}

/-- Rows of which `f` takes the rows of a buffer give the buffer. -/
theorem flatMap_topDown {α β : Type} {buf : List β} {row : Nat → α} {f : α → List β} (hbuf : buf.length = w * h)
    (hrow : ∀ y < h, f (row y) = rowOf buf w y) : (topDown h row).flatMap f = buf := by
  rw [← flatten_rowOf hbuf, topDown, topDown, List.flatMap_map, List.flatMap_def]
  exact congrArg List.flatten (List.map_congr_left fun y hy => hrow y (List.mem_range.mp hy))

theorem segmentLength_eq_bpl (hpad : img.bplNat = img.w ∨ cfg.pcxLinePad = .padToBpl) :
    segmentLength cfg img = img.bplNat := by
  unfold segmentLength
  obtain hpad | hpad := hpad
  · split
    · exact hpad.symm
    · rfl
  · rw [hpad]

theorem take_bodyRow_of_indexed (hr : img.repr = .indexed) (hwf : Memory.wf img) (hy : y < img.h) :
    (bodyRow cfg img y).take img.w = rowOf img.idx img.w y := by
  obtain ⟨-, hidx, -⟩ := hwf
  rw [bodyRow_of_indexed hr, paddedSegment, List.take_left' (rowOf_length hidx hy)]

theorem planarRow_bodyRow_of_truecolor (hr : img.repr = .truecolor) (hwf : Memory.wf img)
    (hbpl : img.w ≤ img.bplNat) (hseg : segmentLength cfg img = img.bplNat) (hy : y < img.h) :
    planarRow img.w img.bplNat (bodyRow cfg img y) = rowOf (img.pix.map Sample.withFullAlpha) img.w y := by
  obtain ⟨-, -, hpix⟩ := id hwf
  have hrow := rowOf_length hpix hy
  have hbyte : ∀ (x i : Nat) (channel : Sample → Byte), x < img.w →
      [Sample.r, Sample.g, Sample.b][i]? = some channel →
      byteAt (bodyRow cfg img y) (i * img.bplNat + x) = channel ((rowOf img.pix img.w y).getD x Sample.zero) := by
    intro x i channel hx hi
    have hget := bodyRow_getElem?_of_truecolor (cfg := cfg) hr hwf hbpl hy (hseg ▸ hx.trans_le hbpl) hi
    rw [hseg, if_pos hx] at hget
    rw [byteAt, List.getD_eq_getElem?_getD, hget]
    rfl
  have hlen : (planarRow img.w img.bplNat (bodyRow cfg img y)).length = (rowOf img.pix img.w y).length := by
    rw [planarRow, List.length_map, List.length_range, hrow]
  rw [show rowOf (img.pix.map Sample.withFullAlpha) img.w y = (rowOf img.pix img.w y).map Sample.withFullAlpha by
    simp only [rowOf, List.map_take, List.map_drop]]
  refine List.ext_getElem (by rw [hlen, List.length_map]) fun x hx _ => ?_
  have hx : x < img.w := by rwa [hlen, hrow] at hx
  have hr := hbyte x 0 Sample.r hx rfl
  have hg := hbyte x 1 Sample.g hx rfl
  have hb := hbyte x 2 Sample.b hx rfl
  rw [Nat.zero_mul, Nat.zero_add] at hr
  rw [Nat.one_mul] at hg
  simp only [planarRow, List.getElem_map, List.getElem_range, hr, hg, hb]
  rw [List.getD_eq_getElem _ _ (hrow.symm ▸ hx)]
  rfl

end BodyRows

/-! ### DECODE of a written file -/

section Commands
variable {s : State} {img : Image}

/-- DECODE with a header and a body: the body runs from its entry. -/
theorem exec_decode_of_body {info : HeaderInfo} {p q : Ports} (hready : s.Ready)
    (hread : headerRead s.cfg (prologue s).ports = .ok info p) (hskip : skip 60 p = .ok false q) :
    (decodeEngine s.freeIx info).Enters { s with hdr := info.hdr } ∧
      ∃ u, exec .decode s = continueBody u (runBody s.cfg (decodeEngine s.freeIx info) q) := by
  obtain ⟨hgeo, hplanes⟩ := headerRead_ok hread
  obtain ⟨hw1, hh1, hwb, -⟩ := id hgeo
  have hpos : 0 < info.hdr.planes.toNat * info.hdr.bpl.toNat :=
    Nat.mul_pos (by obtain hp | hp := hplanes <;> rw [hp] <;> decide) (by omega)
  obtain ⟨line, ph, p', hwhole⟩ := wholeCommand_beginDecode_body (s := prologue s) hread hskip
  exact ⟨⟨decodeEngine_suits rfl hgeo hplanes, by simp [Engine.Staged, decodeEngine, stagedImage], rfl, rfl, rfl, rfl,
    hpos, hh1⟩, _, (exec_decode_of_ready hready).trans hwhole⟩

/-- DECODE of a stream that begins with a written header: the body runs on what comes after it. -/
theorem exec_decode_of_headerBytes {body : List Byte} (hready : s.Ready) (ha : s.PortsAnswer) (hcfg : s.cfg.Ok)
    (hgeo : geometryOk s.cfg img.w img.h img.bplNat) (hin : s.ports.input = headerBytes s.cfg img ++ body) :
    ∃ hdr u p, hdr.Describes img ∧ (decodeEngine s.freeIx hdr.info).Enters { s with hdr := hdr } ∧
      exec .decode s = continueBody u (runBody s.cfg (decodeEngine s.freeIx hdr.info) p) ∧
      p.Answering ∧ p.input = body ∧ p.cursor = 128 := by
  have hlen := congrArg List.length hin
  rw [List.length_append, headerBytes_length hcfg] at hlen
  have hdescribes := headerBytes_describes hcfg hgeo body
  rw [← hin] at hdescribes
  have hread := headerRead_of_answering (cfg := s.cfg) (p := (prologue s).ports) ha
    (show 68 ≤ s.ports.input.length by omega) rfl (accepted_of_describes hgeo hdescribes)
  have hskip := skip_of_enough (n := 60) (p := advance 68 (prologue s).ports.answered) (answered_answering ha)
    (by simp; omega)
  obtain ⟨henters, u, hexec⟩ := exec_decode_of_body hready hread hskip
  refine ⟨_, u, _, hdescribes, henters, hexec, answered_answering (answered_answering ha), ?_, rfl⟩
  rw [advance_input, answered_input, advance_input, answered_input, prologue_ports, startPorts_input, hin,
    List.drop_drop, List.drop_left' (headerBytes_length hcfg)]

/-- DECODE's engine has the geometry of the Image that the header describes. -/
theorem decodeEngine_of_describes {e : Engine} {ix : Draw} {hdr : Header} (h : hdr.Describes img)
    (he : e = decodeEngine ix hdr.info) :
    e.lineLen = img.planeCount * img.bplNat ∧ e.lines = img.h ∧
      e.consumer = (if img.repr = .indexed then .indexed else .planar) ∧
      e.staged.width = img.width ∧ e.staged.height = img.height ∧ e.staged.bpl = img.bpl := by
  have hplanes := planes_eq_of_describes h
  have hw : hdr.info.w = img.w := by rw [Header.info, h.width, Int.toNat_natCast]
  have hh : hdr.info.h = img.h := by rw [Header.info, h.height, Int.toNat_natCast]
  subst he
  refine ⟨?_, hh, ?_, ?_, ?_, h.bpl⟩
  · show hdr.planes.toNat * hdr.bpl.toNat = _
    rw [hplanes, h.bpl, planeCount_eq]
    split <;> rfl
  · show (if hdr.planes = 1#8 then Consumer.indexed else .planar) = _
    rw [hplanes]
    split <;> rfl
  · show BitVec.ofNat 17 hdr.info.w = _
    simp [hw, Image.w]
  · show BitVec.ofNat 17 hdr.info.h = _
    simp [hh, Image.h]

/-- The body of a DECODE has staged what `img` holds of its representation, with the geometry of `img`. -/
structure Engine.Restores (img : Image) (e : Engine) : Prop where
  ended : ¬ e.y < e.lines
  consumer : e.consumer = if img.repr = .indexed then .indexed else .planar
  width : e.staged.width = img.width
  height : e.staged.height = img.height
  bpl : e.staged.bpl = img.bpl
  idx : img.repr = .indexed → e.staged.idx = img.idx
  pix : img.repr = .truecolor → e.staged.pix = img.pix.map Sample.withFullAlpha

/-- DECODE of the file that WRITE_PCX makes of an Image, up to what follows its body. -/
theorem exec_decode_of_pcx (hready : s.Ready) (ha : s.PortsAnswer) (hcfg : s.cfg.Ok) (hok : Image.Ok s.cfg img)
    (habsent : img.repr ≠ .absent) (hpad : img.bplNat = img.w ∨ s.cfg.pcxLinePad = .padToBpl)
    (hin : s.ports.input = (pcxParts s.cfg img).flatten) :
    ∃ u e line q, exec .decode s = continueBody u (.ok (e, line) q) ∧ e.Restores img ∧ q.Answering ∧
      q.input = (if img.repr = .indexed then paletteTrailer img else []) ∧
      q.cursor + q.input.length = s.ports.input.length := by
  obtain ⟨hwf, -, hgeo, -⟩ := hok
  obtain ⟨-, hidx, hpix⟩ := id hwf
  have hgeo := hgeo habsent
  obtain ⟨-, -, hwb, -⟩ := id hgeo
  have hseg := segmentLength_eq_bpl hpad
  rw [pcxParts_flatten, List.append_assoc, bodyChunk_eq hwb, hseg, Nat.mul_comm] at hin
  obtain ⟨hdr, u, p, hhdr, henters, hexec, hp, hbody, hcursor⟩ :=
    exec_decode_of_headerBytes hready ha hcfg hgeo hin
  obtain ⟨e, he⟩ : ∃ e, e = decodeEngine s.freeIx hdr.info := ⟨_, rfl⟩
  obtain ⟨hlineLen, hlines, hcons, hwidth, hheight, hbpl⟩ := decodeEngine_of_describes hhdr he
  rw [← he] at henters hexec
  rw [← hlineLen, bodySeq] at hbody
  have hraw : e.consumer ≠ .raw := by rw [hcons]; split <;> nofun
  obtain ⟨e', line', q, hrun, hrest, hused, hq, hidx', hpix'⟩ := runBody_of_encoded (cfg := s.cfg) henters hraw hp
    (by rw [topDown_length, hlines])
    (fun row hrow => by rw [bodyRows_length habsent hwf hwb row hrow, hseg, hlineLen]) hbody
  obtain ⟨hover, hsame⟩ := runBody_ends hrun
  have hw : e.staged.w = img.w := congrArg BitVec.toNat hwidth
  have hb : e.staged.bplNat = img.bplNat := congrArg BitVec.toNat hbpl
  refine ⟨u, e', line', q, by rw [hexec, hrun], ⟨hover, hsame.consumer.trans hcons, hsame.width.trans hwidth,
    hsame.height.trans hheight, hsame.bpl.trans hbpl, fun hr => ?_, fun hr => ?_⟩, hq, hrest, ?_⟩
  · rw [hidx' (by rw [hcons, if_pos hr]), hw]
    exact flatMap_topDown hidx fun y hy => take_bodyRow_of_indexed hr hwf hy
  · rw [hpix' (by rw [hcons, hr]; rfl), hw, hb]
    exact flatMap_topDown (by rw [List.length_map]; exact hpix) fun y hy =>
      planarRow_bodyRow_of_truecolor hr hwf hwb hseg hy
  · have hlen := congrArg List.length hin
    rw [List.length_append, headerBytes_length hcfg] at hlen
    rw [hrest, hused, hcursor, hbody, hlen, ← hlineLen]
    rfl

theorem continueBody_of_indexed_end {u : State} {e : Engine} {line : List Byte} {q q' : Ports}
    {r : List Sample × Bool} (hover : ¬ e.y < e.lines) (hc : e.consumer = .indexed)
    (hpal : resolvePalette u.hdr.fb q = .ok r q') :
    continueBody u (.ok (e, line) q) = .next (endCommand Status.success q'
      (setResults e.staged.w e.staged.h (bodyResults u e r.2) (commitImage
        { e.staged with repr := .indexed, pal := r.1, pix := depalettize r.1 e.staged.idx } u))) := by
  simp [continueBody, hover, finishBody, hc, hpal]

theorem continueBody_of_planar_end {u : State} {e : Engine} {line : List Byte} {q : Ports}
    (hover : ¬ e.y < e.lines) (hc : e.consumer = .planar) :
    continueBody u (.ok (e, line) q) = .next (endCommand Status.success q
      (setResults e.staged.w e.staged.h (bodyResults u e false)
        (commitImage { e.staged with repr := .truecolor } u))) := by
  simp [continueBody, hover, finishBody, hc]

/-- The file that WRITE_PCX left in the port is attached as DECODE's input. -/
theorem exec_decode_of_exec_writePcx {s : State} (hready : s.Ready) (ha : s.PortsAnswer) (hcfg : s.cfg.Ok)
    (hok : Image.Ok s.cfg s.image) (habsent : s.image.repr ≠ .absent)
    (hpad : s.image.bplNat = s.image.w ∨ s.cfg.pcxLinePad = .padToBpl) :
    ∃ t u e line q, exec .writePcx s = .next t ∧
      exec .decode { t with ports := { t.ports with input := t.ports.output } } = continueBody u (.ok (e, line) q) ∧
      e.Restores s.image ∧ q.Answering ∧
      q.input = (if s.image.repr = .indexed then paletteTrailer s.image else []) ∧
      q.cursor + q.input.length = t.ports.output.length := by
  obtain ⟨t, hexec, hended, hkeeps, hports⟩ := exec_writePcx_of_answering hready ha habsent hok.1
  obtain ⟨-, -, -, hout, -, -, hphase⟩ := hended
  obtain ⟨-, -, -, -, -, -, -, -, hcfg', -⟩ := hkeeps
  have hdecode := exec_decode_of_pcx (s := { t with ports := { t.ports with input := t.ports.output } })
    (img := s.image) (by simp [State.Ready, hphase, Phase.ready]) hports (by rw [hcfg']; exact hcfg)
    (by rw [hcfg']; exact hok) habsent (by rw [hcfg']; exact hpad) (by rw [hcfg']; exact hout)
  obtain ⟨u, e, line, q, hdecode⟩ := hdecode
  exact ⟨t, u, e, line, q, hexec, hdecode⟩

end Commands

end Sys2Proof.Machine

namespace Sys2Proof.Proofs

open Sys2Proof Sys2Proof.Machine Host

/-- Settles O43: the body stages the indices, and the trailer's triples are the palette, whose alphas are R225's. -/
theorem indexedRoundTrip : Obligations.IndexedRoundTrip := by
  unfold Obligations.IndexedRoundTrip
  intro s hready ha hcfg hok hr hpad
  obtain ⟨t, u, e, line, q, hexec, hdecode, he, hq, hin, hcursor⟩ :=
    exec_decode_of_exec_writePcx hready ha hcfg hok (by simp [hr]) hpad
  obtain ⟨⟨hpal, -, -⟩, -, -, hindexed⟩ := hok
  obtain ⟨halpha, hpix⟩ := hindexed hr
  rw [if_pos hr] at hin
  have htable := flatMap_rgb_length hpal
  obtain ⟨q', hresolve, hcursor'⟩ := resolvePalette_of_table u.hdr.fb hq hin htable
  rw [paletteOfBytes_flatMap_rgb hpal halpha] at hresolve
  rw [continueBody_of_indexed_end he.ended (by rw [he.consumer, if_pos hr]) hresolve] at hdecode
  refine ⟨t, _, hexec, hdecode, rfl, ?_, by simp [bodyResults], ?_⟩
  · rw [endCommand_image, setResults_image, commitImage_image_of_indexed _ _ rfl]
    simp only [he.idx hr, ← hpix, ← hr, he.width, he.height, he.bpl]
  · rw [hin, paletteTrailer, List.length_cons, htable] at hcursor
    rw [← hcursor, endCommand_ports, hcursor']

/-- Settles O44: the body stages the channels with alpha 255, and nothing comes after it. -/
theorem truecolorRoundTrip : Obligations.TruecolorRoundTrip := by
  unfold Obligations.TruecolorRoundTrip
  intro s hready ha hcfg hok hr hpad
  obtain ⟨t, u, e, line, q, hexec, hdecode, he, hq, hin, hcursor⟩ :=
    exec_decode_of_exec_writePcx hready ha hcfg hok (by simp [hr]) hpad
  have hne : s.image.repr ≠ .indexed := by simp [hr]
  rw [if_neg hne] at hin
  rw [continueBody_of_planar_end he.ended (by rw [he.consumer, if_neg hne])] at hdecode
  refine ⟨t, _, hexec, hdecode, rfl, by simp, by simp [he.width], by simp [he.height], by simp [he.bpl], ?_, ?_⟩
  · rw [endCommand_image, setResults_image, commitImage_image_pix, he.pix hr]
    rfl
  · rw [← hcursor, hin]
    rfl

end Sys2Proof.Proofs

end

section
/-! PROOFS. The bitmaps (spec/44_writers.md R307 to R312): a header, then the rows bottom-up as BGRA. -/

namespace Sys2Proof.Machine

open Host

/-! ### Rows of BGRA (R303, R309) -/

section Bitmap
variable {img : Image} {pre after : List Byte} {n r x y : Nat}

theorem bgraRow_length (hwf : Memory.wf img) (hy : y < img.h) : (bgraRow img y).length = 4 * img.w := by
  obtain ⟨-, -, hpix⟩ := hwf
  rw [bgraRow, List.flatMap_def, flatten_length_of_rows (k := 4) (by simp [bgra]), List.length_map,
    rowOf_length hpix hy, Nat.mul_comm]

theorem bgraRows_length (hwf : Memory.wf img) : ∀ row ∈ bottomUp img.h (bgraRow img), row.length = 4 * img.w := by
  intro row hrow
  obtain ⟨y, hy, rfl⟩ := mem_bottomUp hrow
  exact bgraRow_length hwf hy

theorem bgraRow_pixel (hwf : Memory.wf img) (hy : y < img.h) (hx : x < img.w) :
    ((bgraRow img y).drop (4 * x)).take 4 = bgra (img.pix.getD (y * img.w + x) Sample.zero) := by
  obtain ⟨-, -, hpix⟩ := hwf
  have hlt : x < (rowOf img.pix img.w y).length := by rwa [rowOf_length hpix hy]
  rw [← rowOf_getD hx, List.getD_eq_getElem _ _ hlt]
  exact take_drop_flatMap (f := bgra) (fun _ => rfl) (List.getElem?_eq_getElem hlt)

/-- A pixel's place after a header. -/
theorem bgraRows_pixel (hwf : Memory.wf img) (hpre : pre.length = n) (hr : r < img.h) (hx : x < img.w) :
    ((pre ++ ((bottomUp img.h (bgraRow img)).flatten ++ after)).drop (n + r * (4 * img.w) + 4 * x)).take 4 =
      bgra (img.pix.getD ((img.h - 1 - r) * img.w + x) Sample.zero) := by
  rw [take_drop_rows hpre (bgraRows_length hwf) (bottomUp_getElem? hr) (by omega),
    bgraRow_pixel hwf (by omega) hx]

/-- What is in a bitmap file: its size, its header, and each pixel. -/
theorem bitmap_layout {out : List Byte} (hwf : Memory.wf img) (hpre : pre.length = n)
    (hout : out = pre ++ ((bottomUp img.h (bgraRow img)).flatten ++ [])) :
    out.length = n + 4 * img.w * img.h ∧ out.take n = pre ∧
      ∀ r x, r < img.h → x < img.w → (out.drop (n + 4 * (r * img.w + x))).take 4 =
        bgra (img.pix.getD ((img.h - 1 - r) * img.w + x) Sample.zero) := by
  subst hout
  refine ⟨?_, List.take_left' hpre, fun r x hr hx => ?_⟩
  · rw [List.length_append, hpre, List.append_nil, flatten_length_of_rows (bgraRows_length hwf), bottomUp_length,
      Nat.mul_comm img.h]
  · rw [show n + 4 * (r * img.w + x) = n + r * (4 * img.w) + 4 * x by ring]
    exact bgraRows_pixel hwf hpre hr hx

theorem bmpParts_flatten (img : Image) : (bmpParts img).flatten =
    bmpFileHeader 54 img ++ bmpInfo img ++ ((bottomUp img.h (bgraRow img)).flatten ++ []) := by
  simp [bmpParts]

theorem bmpaParts_flatten (img : Image) : (bmpaParts img).flatten =
    bmpFileHeader 122 img ++ bmpaInfo img ++ ((bottomUp img.h (bgraRow img)).flatten ++ []) := by
  simp [bmpaParts]

/-- The two headers of the opaque bitmap, byte for byte (R307, R308). -/
theorem bmpHeaders_eq (img : Image) : bmpFileHeader 54 img ++ bmpInfo img =
    [0x42#8, 0x4D#8] ++ toLE32 (54 + 4 * img.w * img.h) ++ [0#8, 0#8, 0#8, 0#8, 54#8, 0#8, 0#8, 0#8] ++
      [40#8, 0#8, 0#8, 0#8] ++ toLE32 img.w ++ toLE32 img.h ++ [1#8, 0#8, 32#8, 0#8, 0#8, 0#8, 0#8, 0#8] ++
      toLE32 (4 * img.w * img.h) ++ List.replicate 16 0#8 := by
  delta bmpFileHeader bmpInfo
  simp only [List.append_assoc]
  rfl

/-- The bit-field masks, the colour space and the fields after it (R311). -/
theorem bmpaInfo_tail :
    toLE32 0x00FF0000 ++ (toLE32 0x0000FF00 ++ (toLE32 0x000000FF ++ (toLE32 0xFF000000 ++ (toLE32 0x73524742 ++
      (List.replicate 36 0#8 ++ (toLE32 0 ++ (toLE32 0 ++ toLE32 0))))))) =
    [0x00#8, 0x00#8, 0xFF#8, 0x00#8] ++ ([0x00#8, 0xFF#8, 0x00#8, 0x00#8] ++ ([0xFF#8, 0x00#8, 0x00#8, 0x00#8] ++
      ([0x00#8, 0x00#8, 0x00#8, 0xFF#8] ++ ([0x42#8, 0x47#8, 0x52#8, 0x73#8] ++ List.replicate 48 0#8)))) := by
  decide

/-- The two headers of the alpha bitmap, byte for byte (R310, R311). `delta` because an equation lemma of `bmpaInfo`
compares its masks with its sizes, unfolded. -/
theorem bmpaHeaders_eq (img : Image) : bmpFileHeader 122 img ++ bmpaInfo img =
    [0x42#8, 0x4D#8] ++ toLE32 (122 + 4 * img.w * img.h) ++ [0#8, 0#8, 0#8, 0#8, 122#8, 0#8, 0#8, 0#8] ++
      [108#8, 0#8, 0#8, 0#8] ++ toLE32 img.w ++ toLE32 img.h ++ [1#8, 0#8, 32#8, 0#8, 3#8, 0#8, 0#8, 0#8] ++
      toLE32 (4 * img.w * img.h) ++ List.replicate 16 0#8 ++
      [0x00#8, 0x00#8, 0xFF#8, 0x00#8] ++ [0x00#8, 0xFF#8, 0x00#8, 0x00#8] ++
      [0xFF#8, 0x00#8, 0x00#8, 0x00#8] ++ [0x00#8, 0x00#8, 0x00#8, 0xFF#8] ++
      [0x42#8, 0x47#8, 0x52#8, 0x73#8] ++ List.replicate 48 0#8 := by
  delta bmpFileHeader bmpaInfo
  simp only [List.append_assoc, bmpaInfo_tail]
  rfl

theorem bmpHeaders_length (img : Image) : (bmpFileHeader 54 img ++ bmpInfo img).length = 54 := by
  simp [bmpHeaders_eq, toLE32]

theorem bmpaHeaders_length (img : Image) : (bmpFileHeader 122 img ++ bmpaInfo img).length = 122 := by
  simp [bmpaHeaders_eq, toLE32]

end Bitmap

/-! ### The commands -/

section Commands
variable {s t : State}

/-- The output of an ended command is what its port holds. -/
theorem ended_output {st : Status} {used : Nat} {out : List Byte} (h : Ended t st used out) :
    t.ports.output = out ∧ Ended t st used t.ports.output := by
  obtain ⟨-, -, -, hout, -⟩ := id h
  exact ⟨hout, hout.symm ▸ h⟩

/-- WRITE_BMP and WRITE_BMPA write their parts out. -/
theorem exec_bitmap_of_answering {i : Instr} {parts : Image → List (List Byte)}
    (hi : i = .writeBmp ∧ parts = bmpParts ∨ i = .writeBmpa ∧ parts = bmpaParts) (hready : s.Ready)
    (ha : s.PortsAnswer) (hrepr : s.image.repr ≠ .absent) (hwf : Memory.wf s.image) :
    ∃ t, exec i s = .next t ∧ Ended t Status.success 0 (parts s.image).flatten ∧ KeepsAll s t := by
  have hexec : exec i s = emitImage (prologue s) requireImage parts := by
    obtain ⟨rfl, rfl⟩ | ⟨rfl, rfl⟩ := hi
    · exact runCommand_of_ready hready fun s => emitImage s requireImage bmpParts
    · exact runCommand_of_ready hready fun s => emitImage s requireImage bmpaParts
  obtain ⟨t, hemit, hended, hkeeps, -⟩ :=
    emitImage_of_answering parts ha fun p => requireImage_of_wf p hrepr hwf
  exact ⟨t, hexec.trans hemit, hended, hkeeps⟩

end Commands

end Sys2Proof.Machine

namespace Sys2Proof.Proofs

open Sys2Proof Sys2Proof.Machine Host

/-- Settles O41: the two headers of 54 bytes, then the rows. -/
theorem writeBmpOutputsFile : Obligations.WriteBmpOutputsFile := by
  unfold Obligations.WriteBmpOutputsFile
  rintro s _ _ hready ha hrepr hwf rfl rfl
  obtain ⟨t, hexec, hended, hkeeps⟩ := exec_bitmap_of_answering (.inl ⟨rfl, rfl⟩) hready ha hrepr hwf
  obtain ⟨hout, hended⟩ := ended_output hended
  obtain ⟨hlen, hheader, hpixels⟩ := bitmap_layout hwf (bmpHeaders_length s.image)
    (hout.trans (bmpParts_flatten s.image))
  exact ⟨t, hexec, hended, hlen, hheader.trans (bmpHeaders_eq s.image), hpixels, hkeeps⟩

/-- Settles O42: the file header and the extended info header, 122 bytes, then the rows. -/
theorem writeBmpaOutputsFile : Obligations.WriteBmpaOutputsFile := by
  unfold Obligations.WriteBmpaOutputsFile
  rintro s _ _ hready ha hrepr hwf rfl rfl
  obtain ⟨t, hexec, hended, hkeeps⟩ := exec_bitmap_of_answering (.inr ⟨rfl, rfl⟩) hready ha hrepr hwf
  obtain ⟨hout, hended⟩ := ended_output hended
  obtain ⟨hlen, hheader, hpixels⟩ := bitmap_layout hwf (bmpaHeaders_length s.image)
    (hout.trans (bmpaParts_flatten s.image))
  exact ⟨t, hexec, hended, hlen, hheader.trans (bmpaHeaders_eq s.image), hpixels, hkeeps⟩

end Sys2Proof.Proofs
end

section
/-! PROOFS. The icon (spec/44_writers.md R297 to R306): its size check, its headers and color table, its XOR rows and
its AND mask, in both forms. -/

namespace Sys2Proof.Machine

open Host

/-! ### The AND mask (R304) -/

section Mask
variable {ts : List Bool} {k : Nat}

/-- A bit of a row of conditional ORs is set by one of them. -/
theorem foldl_or_getLsbD (t : Nat → Bool) (mask : Nat → Byte) (l : List Nat) (m : Byte) (b : Nat) :
    (l.foldl (fun m k => if t k then m ||| mask k else m) m).getLsbD b =
      (m.getLsbD b || l.any fun k => t k && (mask k).getLsbD b) := by
  induction l generalizing m with
  | nil => simp
  | cons k l ih =>
    rw [List.foldl_cons, ih, List.any_cons]
    cases t k <;> simp [Bool.or_assoc]

/-- The first pixel of a mask byte is its most significant bit. -/
theorem mask_getLsbD : ∀ j < 8, ∀ k < 8, (0x80#8 >>> j).getLsbD (7 - k) = decide (j = k) := by decide

theorem maskByte_getLsbD (hk : k < 8) (j : Nat) :
    (maskByte ts j).getLsbD (7 - k) = ts.getD (8 * j + k) false := by
  have hany : ((List.range 8).any fun i => ts.getD (8 * j + i) false && (0x80#8 >>> i).getLsbD (7 - k)) =
      ts.getD (8 * j + k) false := by
    rw [Bool.eq_iff_iff, List.any_eq_true]
    constructor
    · rintro ⟨i, hi, h⟩
      obtain ⟨ht, hbit⟩ := Bool.and_eq_true_iff.mp h
      rw [mask_getLsbD i (List.mem_range.mp hi) k hk, decide_eq_true_eq] at hbit
      exact hbit ▸ ht
    · exact fun ht => ⟨k, List.mem_range.mpr hk, by rw [ht, mask_getLsbD k hk k hk]; simp⟩
  rw [maskByte, foldl_or_getLsbD, hany]
  simp

end Mask

/-! ### Rows (R303, R304) -/

section Icon
variable {img : Image} {form : IconForm} {heads table : List Byte} {r x y : Nat}

theorem andStride_eq (img : Image) : andStride img = 4 * ((img.w + 31) / 32) := by
  simp only [andStride, ceilDiv]
  omega

theorem xorStride_ico8 (img : Image) : xorStride .ico8 img = 4 * ((img.w + 3) / 4) := rfl

theorem andRow_length : (andRow form img y).length = andStride img := by simp [andRow]

theorem xorRow_length (hwf : Memory.wf img) (hy : y < img.h) : (xorRow form img y).length = xorStride form img := by
  obtain ⟨-, hidx, -⟩ := id hwf
  cases form with
  | ico8 =>
    have hle : img.w ≤ xorStride .ico8 img := by rw [xorStride_ico8]; omega
    rw [xorRow, List.length_append, List.length_replicate, rowOf_length hidx hy, Nat.add_sub_cancel' hle]
  | ico32 => exact bgraRow_length hwf hy

/-- The bit of pixel `x` in its AND row. -/
theorem andRow_bit (hx : x < 8 * andStride img) :
    ((andRow form img y).getD (x / 8) 0#8).getLsbD (7 - x % 8) = (transparentRow form img y).getD x false := by
  have hlt : x / 8 < andStride img := by omega
  rw [andRow, List.getD_eq_getElem _ _ (by simpa using hlt), List.getElem_map, List.getElem_range,
    maskByte_getLsbD (Nat.mod_lt x (by omega)), Nat.div_add_mod]

/-! ### The file (R306) -/

/-- The icon's parts as one sequence. -/
def iconFile (form : IconForm) (img : Image) (table : List Byte) : List Byte :=
  (iconHeader ++ iconEntry form img ++ iconInfo form img ++ table) ++
    ((bottomUp img.h (xorRow form img)).flatten ++ (bottomUp img.h (andRow form img)).flatten)

theorem icoParts_flatten_ico8 (h : iconForm img = .ico8) :
    (icoParts img).flatten = iconFile .ico8 img (iconTable img) := by
  simp [icoParts, h, iconFile]

theorem icoParts_flatten_ico32 (h : iconForm img = .ico32) : (icoParts img).flatten = iconFile .ico32 img [] := by
  simp [icoParts, h, iconFile]

theorem iconHeads_length : (iconHeader ++ iconEntry form img ++ iconInfo form img).length = 62 := by
  simp [iconHeader, iconEntry, iconInfo, toLE16, toLE32]

/-- The icon header, the directory entry and the info header, byte for byte (R299 to R301). -/
theorem iconHeads_eq (form : IconForm) (img : Image) : iconHeader ++ iconEntry form img ++ iconInfo form img =
    [0#8, 0#8, 1#8, 0#8, 1#8, 0#8] ++
      [BitVec.ofNat 8 img.w, BitVec.ofNat 8 img.h, 0#8, 0#8, 1#8, 0#8, BitVec.ofNat 8 form.bpp, 0#8] ++
      toLE32 (40 + form.tableSize + xorSize form img + andSize img) ++ [22#8, 0#8, 0#8, 0#8] ++
      [40#8, 0#8, 0#8, 0#8] ++ toLE32 img.w ++ toLE32 (2 * img.h) ++
      [1#8, 0#8, BitVec.ofNat 8 form.bpp, 0#8, 0#8, 0#8, 0#8, 0#8] ++
      toLE32 (xorSize form img + andSize img) ++ List.replicate 16 0#8 := by
  have hbyte : ∀ v, BitVec.ofNat 8 (v % 256) = BitVec.ofNat 8 v := fun v => BitVec.eq_of_toNat_eq (by simp)
  have hbpp : toLE16 form.bpp = [BitVec.ofNat 8 form.bpp, 0#8] := by cases form <;> decide
  delta iconHeader iconEntry iconInfo
  simp only [List.append_assoc, hbyte, hbpp]
  rfl

theorem xorRows_length (hwf : Memory.wf img) :
    ∀ row ∈ bottomUp img.h (xorRow form img), row.length = xorStride form img := by
  intro row hrow
  obtain ⟨y, hy, rfl⟩ := mem_bottomUp hrow
  exact xorRow_length hwf hy

theorem andRows_length : ∀ row ∈ bottomUp img.h (andRow form img), row.length = andStride img := by
  intro row hrow
  obtain ⟨y, -, rfl⟩ := mem_bottomUp hrow
  exact andRow_length

theorem iconFront_length (htable : table.length = form.tableSize) :
    (iconHeader ++ iconEntry form img ++ iconInfo form img ++ table).length = 62 + form.tableSize := by
  rw [List.length_append, iconHeads_length, htable]

theorem xorRows_flatten_length (hwf : Memory.wf img) :
    (bottomUp img.h (xorRow form img)).flatten.length = xorSize form img := by
  rw [flatten_length_of_rows (xorRows_length hwf), bottomUp_length, xorSize]

theorem iconFile_length (hwf : Memory.wf img) (htable : table.length = form.tableSize) :
    (iconFile form img table).length = 22 + (40 + form.tableSize + xorSize form img + andSize img) := by
  rw [iconFile, List.length_append, iconFront_length htable, List.length_append, xorRows_flatten_length hwf,
    flatten_length_of_rows andRows_length, bottomUp_length, andSize]
  omega

theorem iconFile_heads :
    (iconFile form img table).take 62 = iconHeader ++ iconEntry form img ++ iconInfo form img := by
  rw [iconFile, List.append_assoc, List.take_left' iconHeads_length]

/-- The XOR rows' place in the file. -/
theorem iconFile_xor (hwf : Memory.wf img) (htable : table.length = form.tableSize) (hr : r < img.h)
    (hx : x < xorStride form img) :
    (iconFile form img table)[62 + form.tableSize + r * xorStride form img + x]? =
      (xorRow form img (img.h - 1 - r))[x]? :=
  getElem?_rows (iconFront_length htable) (xorRows_length hwf) (bottomUp_getElem? hr) hx

/-- A pixel of a 32-bit XOR row (R303). -/
theorem iconFile_pixel (hwf : Memory.wf img) (hr : r < img.h) (hx : x < img.w) :
    ((iconFile .ico32 img []).drop (62 + r * (4 * img.w) + 4 * x)).take 4 =
      bgra (img.pix.getD ((img.h - 1 - r) * img.w + x) Sample.zero) :=
  bgraRows_pixel hwf (iconFront_length (form := .ico32) rfl) hr hx

/-- The AND rows' place in the file, bit by bit. -/
theorem iconFile_and (hwf : Memory.wf img) (htable : table.length = form.tableSize) (hr : r < img.h)
    (hx : x < 8 * andStride img) :
    ((iconFile form img table).getD (62 + form.tableSize + xorSize form img + r * andStride img + x / 8)
      0#8).getLsbD (7 - x % 8) = (transparentRow form img (img.h - 1 - r)).getD x false := by
  have hpre : (iconHeader ++ iconEntry form img ++ iconInfo form img ++ table ++
      (bottomUp img.h (xorRow form img)).flatten).length = 62 + form.tableSize + xorSize form img := by
    rw [List.length_append, iconFront_length htable, xorRows_flatten_length hwf]
  have hget := getElem?_rows (after := []) hpre (andRows_length (form := form)) (bottomUp_getElem? hr)
    (show x / 8 < andStride img by omega)
  rw [List.append_nil, List.append_assoc] at hget
  rw [List.getD_eq_getElem?_getD, iconFile, hget, ← List.getD_eq_getElem?_getD, andRow_bit hx]

/-- A row's flags by position: none past W. -/
theorem map_rowOf_getD {α : Type} {buf : List α} {w h : Nat} (flag : α → Bool) (d : α) (hbuf : buf.length = w * h)
    (hy : y < h) :
    ((rowOf buf w y).map flag).getD x false = (decide (x < w) && flag (buf.getD (y * w + x) d)) := by
  have hrow := rowOf_length hbuf hy
  by_cases hx : x < w
  · rw [map_getD_of_lt (d := d) (by rwa [hrow]), rowOf_getD hx]
    simp [hx]
  · rw [List.getD_eq_default _ _ (by rw [List.length_map, hrow]; omega)]
    simp [hx]

theorem transparentRow_ico32 (hwf : Memory.wf img) (hy : y < img.h) :
    (transparentRow .ico32 img y).getD x false =
      decide (x < img.w ∧ (img.pix.getD (y * img.w + x) Sample.zero).a = 0#8) := by
  obtain ⟨-, -, hpix⟩ := hwf
  rw [transparentRow, map_rowOf_getD _ Sample.zero hpix hy, Bool.decide_and, Bool.beq_eq_decide_eq]

theorem transparentRow_ico8 (hwf : Memory.wf img) (hy : y < img.h) :
    (transparentRow .ico8 img y).getD x false = decide (x < img.w ∧ img.idx.getD (y * img.w + x) 0#8 = 0#8) := by
  obtain ⟨-, hidx, -⟩ := hwf
  rw [transparentRow, map_rowOf_getD _ 0#8 hidx hy, Bool.decide_and, Bool.beq_eq_decide_eq]

theorem iconTable_eq (img : Image) : iconTable img = (img.pal.map fun p => [p.b, p.g, p.r, 0#8]).flatten :=
  List.flatMap_def

theorem iconTable_length (hwf : Memory.wf img) : (iconTable img).length = 1024 := by
  obtain ⟨hpal, -⟩ := hwf
  rw [iconTable_eq, flatten_length_of_rows (k := 4) (by simp), List.length_map, hpal]

/-- An entry of the color table (R302). -/
theorem iconFile_entry {i : Nat} {p : Sample} (hi : img.pal[i]? = some p) :
    ((iconFile form img (iconTable img)).drop (62 + 4 * i)).take 4 = [p.b, p.g, p.r, 0#8] := by
  have hrow : (img.pal.map fun p => [p.b, p.g, p.r, 0#8])[i]? = some [p.b, p.g, p.r, 0#8] := by
    rw [List.getElem?_map, hi]
    rfl
  have hentry := take_drop_rows
    (after := (bottomUp img.h (xorRow form img)).flatten ++ (bottomUp img.h (andRow form img)).flatten)
    (k := 4) (j := 0) (m := 4) (iconHeads_length (form := form) (img := img)) (by simp) hrow le_rfl
  rw [Nat.add_zero, Nat.mul_comm, ← iconTable_eq, ← List.append_assoc] at hentry
  exact hentry

/-- A byte of an 8-bit XOR row (R303). -/
theorem xorRow_ico8_getElem? (hwf : Memory.wf img) (hy : y < img.h) (hx : x < xorStride .ico8 img) :
    (xorRow .ico8 img y)[x]? = some (if x < img.w then img.idx.getD (y * img.w + x) 0#8 else 0#8) := by
  obtain ⟨-, hidx, -⟩ := hwf
  rw [xorRow, padded_getElem? (rowOf_length hidx hy) hx]
  split
  · next hw => rw [rowOf_getD hw]
  · rfl

end Icon

/-! ### The command -/

section Command
variable {s : State}

theorem exec_writeIco_of_ready (hready : s.Ready) : exec .writeIco s = emitImage (prologue s) requireIcon icoParts :=
  runCommand_of_ready hready fun s => emitImage s requireIcon icoParts

/-- The size check of an Image that is there (R297). -/
theorem requireIcon_of_wf {img : Image} (p : Ports) (hrepr : img.repr ≠ .absent) (hwf : Memory.wf img) :
    requireIcon img p = require (decide (img.w ≤ 256 ∧ img.h ≤ 256)) .iconOversize p := by
  rw [requireIcon, requireImage_of_wf p hrepr hwf, andThen_ok]

theorem exec_writeIco_of_answering (hready : s.Ready) (ha : s.PortsAnswer) (hrepr : s.image.repr ≠ .absent)
    (hwf : Memory.wf s.image) (hw : s.image.w ≤ 256) (hh : s.image.h ≤ 256) :
    ∃ t, exec .writeIco s = .next t ∧ Ended t Status.success 0 t.ports.output ∧
      t.ports.output = (icoParts s.image).flatten ∧ KeepsAll s t := by
  obtain ⟨t, hemit, hended, hkeeps, -⟩ := emitImage_of_answering icoParts ha fun p =>
    (requireIcon_of_wf p hrepr hwf).trans (require_true (decide_eq_true ⟨hw, hh⟩) _ p)
  obtain ⟨hout, hended⟩ := ended_output hended
  exact ⟨t, (exec_writeIco_of_ready hready).trans hemit, hended, hout, hkeeps⟩

theorem exec_writeIco_of_oversize (hready : s.Ready) (hrepr : s.image.repr ≠ .absent) (hwf : Memory.wf s.image)
    (hsize : 256 < s.image.w ∨ 256 < s.image.h) :
    ∃ t, exec .writeIco s = .next t ∧ Ended t (Status.failure .iconOversize) 0 [] ∧ KeepsAll s t := by
  have hcheck : requireIcon s.image (prologue s).ports = .error .iconOversize (prologue s).ports :=
    (requireIcon_of_wf _ hrepr hwf).trans (require_false (decide_eq_false (by omega)) _ _)
  refine ended_of_error (keepsAll_prologue s) (q := (prologue s).ports) ?_ rfl rfl
  rw [exec_writeIco_of_ready hready, emitImage, prologue_image, hcheck, andThen_error, conclude_error]

end Command

end Sys2Proof.Machine

namespace Sys2Proof.Proofs

open Sys2Proof Sys2Proof.Machine Host

/-- Settles O38: the size check comes before any request. -/
theorem iconSizeLimit : Obligations.IconSizeLimit := by
  unfold Obligations.IconSizeLimit
  refine fun s hready hrepr hwf => ⟨fun hsize => ?_, fun ha ⟨hw, hh⟩ => ?_⟩
  · obtain ⟨t, hexec, hended, hkeeps⟩ := exec_writeIco_of_oversize hready hrepr hwf hsize
    obtain ⟨hstatus, -⟩ := id hended
    exact ⟨t, hexec, hended, by rw [hstatus]; decide, hkeeps⟩
  · obtain ⟨t, hexec, hended, -, hkeeps⟩ := exec_writeIco_of_answering hready ha hrepr hwf hw hh
    exact ⟨t, hexec, hended, hkeeps⟩

/-- Settles O39: the layout of the icon's file in its 32-bit form. -/
theorem writeIcoTruecolorForm : Obligations.WriteIcoTruecolorForm := by
  unfold Obligations.WriteIcoTruecolorForm
  rintro s _ _ _ _ _ hready ha hwf hform hw hh rfl rfl rfl rfl rfl
  have hrepr : s.image.repr ≠ .absent := by obtain ⟨hr, -⟩ | hr := hform <;> simp [hr]
  have hico : iconForm s.image = .ico32 := by
    rw [iconForm, if_neg]
    rintro ⟨hr, hlarge⟩
    obtain ⟨-, hsmall⟩ | hr' := hform
    · omega
    · rw [hr] at hr'
      cases hr'
  obtain ⟨t, hexec, hended, hout, hkeeps⟩ := exec_writeIco_of_answering hready ha hrepr hwf hw hh
  rw [icoParts_flatten_ico32 hico] at hout
  refine ⟨t, hexec, hended, ?_⟩
  rw [hout, ← andStride_eq]
  refine ⟨iconFile_length hwf rfl, iconFile_heads.trans (iconHeads_eq .ico32 s.image),
    fun r x hr hx => iconFile_pixel hwf hr hx, fun r x hr hx => ?_, hkeeps⟩
  exact (iconFile_and hwf rfl hr hx).trans (transparentRow_ico32 hwf (by omega))

/-- Settles O40: the layout of the icon's file in its 8-bit form. -/
theorem writeIcoIndexedForm : Obligations.WriteIcoIndexedForm := by
  unfold Obligations.WriteIcoIndexedForm
  rintro s _ _ _ _ _ _ hready ha hwf hr hlarge hw hh rfl rfl rfl rfl rfl rfl
  have hico : iconForm s.image = .ico8 := if_pos ⟨hr, hlarge⟩
  have htable := iconTable_length hwf
  obtain ⟨t, hexec, hended, hout, hkeeps⟩ := exec_writeIco_of_answering hready ha (by simp [hr]) hwf hw hh
  rw [icoParts_flatten_ico8 hico] at hout
  refine ⟨t, hexec, hended, ?_⟩
  rw [hout, ← andStride_eq, ← xorStride_ico8]
  refine ⟨iconFile_length hwf htable, iconFile_heads.trans (iconHeads_eq .ico8 s.image),
    fun i p hp => iconFile_entry hp, fun r x hr hx => ?_, fun r x hr hx => ?_, hkeeps⟩
  · have hbyte := (iconFile_xor hwf htable hr hx).trans (xorRow_ico8_getElem? hwf (by omega) hx)
    exact (congrArg (Option.getD · 0#8) hbyte)
  · exact (iconFile_and hwf htable hr hx).trans (transparentRow_ico8 hwf (by omega))

end Sys2Proof.Proofs
end

section
/-! PROOFS. A step's accepted command (spec/45_commands.md R350, R351), and the commands that take no input (R352, R353,
R358 to R361): what NOP and CLEAR leave, what the reading commands put out, and how misuse ends a command (R404). -/

namespace Sys2Proof.Machine

open Host

/-! ### An accepted command (R350, R351) -/

section Accepted
variable {s : State} {op : Byte}

theorem commandOpcode_of_setWidth (op : Byte) : commandOpcode (op.setWidth 32) = op := by
  apply BitVec.eq_of_toNat_eq
  simpa [commandOpcode] using op.isLt

/-- A word that holds an opcode alone decodes as the table has it (R107, R109). -/
theorem decodeCommand_setWidth (op : Byte) : decodeCommand (op.setWidth 32) =
    (decodeOpcode op).elim (.error (.unknownOpcode op)) .ok := by
  have hop := commandOpcode_of_setWidth op
  have hlt : (op.setWidth 32).toNat < 256 := by
    rw [BitVec.toNat_setWidth]
    exact (Nat.mod_le _ _).trans_lt op.isLt
  cases hd : decodeOpcode op with
  | some i => exact decodeCommand_of_some hlt (hop.symm ▸ hd)
  | none => rw [decodeCommand_of_none hlt (hop.symm ▸ hd), hop]; rfl

/-- A step from an accepted command, when it is the core's turn, performs the command (log 9). -/
theorem step_of_accepted {rest : List HostOp} (hphase : s.phase = .accepted op)
    (hhost : s.host = [] ∧ rest = [] ∨ s.host = .grant .command :: rest) :
    step s = performCommand op { s with host := rest } := by
  obtain ⟨hhost, rfl⟩ | hhost := hhost
  · have hself : { s with host := [] } = s := by rw [← hhost]
    rw [hself]
    simp only [step, agentsMove, hhost, coreMove, hphase]
  · simp only [step, agentsMove, hhost, hostMove, coreMove, hphase]

/-- A command of an unassigned opcode ends before any request. -/
theorem execUnknownOpcode_of_ready (hready : s.Ready) :
    ∃ t, execUnknownOpcode s = .next t ∧ Ended t (Status.failure .unknownOpcode) 0 [] ∧ KeepsAll s t :=
  ended_of_error (keepsAll_prologue s)
    (runCommand_of_ready hready fun s => .next (raiseError .unknownOpcode s.ports s)) rfl rfl

end Accepted

/-! ### Commands that succeed (R352) -/

section Ends
variable {s u : State} {o : Outcome State Fault Refusal} {q : Ports}

theorem ended_endCommand {st : Status} {used : Nat} {out : List Byte} (hused : q.cursor = used)
    (hout : q.output = out) : Ended (endCommand st q u) st used out := by
  subst hused hout
  exact endCommand_ended st q u

/-- A command without an effect of its own that ends with success keeps everything but STATUS, the counts and the
scratch. -/
theorem ended_of_success {used : Nat} {out : List Byte} (hu : KeepsAll s u)
    (ho : o = .next (endCommand Status.success q u)) (hused : q.cursor = used) (hout : q.output = out) :
    ∃ t, o = .next t ∧ Ended t Status.success used out ∧ KeepsAll s t :=
  ⟨_, ho, ended_endCommand hused hout, by simpa [KeepsAll, KeepsResults, KeepsOperands] using hu⟩

end Ends

/-! ### NOP and CLEAR (R353, R361) -/

section Clear
variable {s : State}

theorem exec_nop_of_ready (hready : s.Ready) :
    exec .nop s = .next (endCommand Status.success (prologue s).ports (prologue s)) :=
  runCommand_of_ready hready fun s => conclude s (.ok () s.ports) noEffect

/-- CLEAR changes the Image and nothing else, and another command can begin. -/
theorem exec_clear_of_ready (hready : s.Ready) :
    ∃ t, exec .clear s = .next t ∧ t.image = clearedImage s.freeIx s.image ∧ Ended t Status.success 0 [] ∧ t.Ready ∧
      KeepsResults s t ∧ KeepsOperands s t :=
  ⟨_, runCommand_of_ready hready fun s => conclude s (.ok () s.ports) fun _ s =>
      { s with image := clearedImage s.freeIx s.image },
    rfl, endCommand_ended _ _ _, rfl, ⟨rfl, rfl, rfl⟩, by simp [KeepsOperands]⟩

theorem clearedImage_geometry (ix : Draw) (img : Image) : (clearedImage ix img).width = 0#17 ∧
    (clearedImage ix img).height = 0#17 ∧ (clearedImage ix img).bpl = 0#16 := by
  unfold clearedImage
  split <;> exact ⟨rfl, rfl, rfl⟩

/-- With no Image there is nothing to clear. -/
theorem clearedImage_of_absent {cfg : Config} {img : Image} (ix : Draw) (habsent : img.repr = .absent)
    (hok : Image.Ok cfg img) : clearedImage ix img = img := by
  obtain ⟨-, hgeo, -⟩ := hok
  obtain ⟨hw, hh, hb⟩ := hgeo habsent
  obtain ⟨repr, width, height, bpl, pal, idx, pix⟩ := img
  simp only at habsent hw hh hb
  subst habsent hw hh hb
  rfl

end Clear

/-! ### The commands that write the Image out (R352, R358 to R360, R364 to R367) -/

section Emitters
variable {s : State} {i : Instr} {check : Image → Ports → Reply Unit} {parts : Image → List (List Byte)} {e : CmdError}

/-- The precondition and the requests of a command that writes the Image out. -/
def emitter (cfg : Config) : Instr → Option ((Image → Ports → Reply Unit) × (Image → List (List Byte)))
  | .readIndex => some (requireIndexed, fun img => [img.idx])
  | .readPalette => some (requireIndexed, fun img => img.pal.map rgba)
  | .readPixels => some (requireImage, fun img => img.pix.map rgba)
  | .writePcx => some (requireImage, pcxParts cfg)
  | .writeIco => some (requireIcon, icoParts)
  | .writeBmp => some (requireImage, bmpParts)
  | .writeBmpa => some (requireImage, bmpaParts)
  | _ => none

theorem exec_of_emitter (hready : s.Ready) (h : emitter s.cfg i = some (check, parts)) :
    exec i s = emitImage (prologue s) check parts := by
  cases i with
  | writePcx =>
    obtain ⟨rfl, rfl⟩ := Prod.mk.inj (Option.some.inj h)
    exact exec_writePcx_of_ready hready
  | readIndex | readPalette | readPixels | writeIco | writeBmp | writeBmpa =>
    obtain ⟨rfl, rfl⟩ := Prod.mk.inj (Option.some.inj h)
    exact runCommand_of_ready hready fun s => emitImage s _ _
  | _ => cases h

/-- On answering ports a command whose precondition holds puts all its parts out. -/
theorem exec_emitter_of_answering (hready : s.Ready) (ha : s.PortsAnswer)
    (h : emitter s.cfg i = some (check, parts)) (hcheck : ∀ p, check s.image p = .ok () p) :
    ∃ t, exec i s = .next t ∧ Ended t Status.success 0 (parts s.image).flatten ∧ KeepsAll s t := by
  obtain ⟨t, hemit, hended, hkeeps, -⟩ := emitImage_of_answering parts ha hcheck
  exact ⟨t, (exec_of_emitter hready h).trans hemit, hended, hkeeps⟩

/-- A command whose precondition fails ends before any request (R404, R410). -/
theorem exec_emitter_of_error (hready : s.Ready) (h : emitter s.cfg i = some (check, parts))
    (hcheck : ∀ p, check s.image p = .error e p) :
    ∃ t, exec i s = .next t ∧ Ended t (Status.failure e) 0 [] ∧ KeepsAll s t := by
  refine ended_of_error (keepsAll_prologue s) (q := (prologue s).ports) ?_ rfl rfl
  rw [exec_of_emitter hready h, emitImage, prologue_image, hcheck, andThen_error, conclude_error]

/-- Every command that reads the Image asks first whether there is one (R352). -/
theorem emitter_of_absent (cfg : Config) {img : Image} (habsent : img.repr = .absent)
    (hi : i ∈ [.readPixels, .writePcx, .writeIco, .writeBmp, .writeBmpa, .readIndex, .readPalette]) :
    ∃ check parts, emitter cfg i = some (check, parts) ∧ ∀ p, check img p = .error .noImage p := by
  have himage : ∀ p, requireImage img p = .error .noImage p := fun p => by simp [requireImage, require, habsent]
  have hindexed : ∀ p, requireIndexed img p = .error .noImage p := fun p => by simp [requireIndexed, require, habsent]
  have hicon : ∀ p, requireIcon img p = .error .noImage p := fun p => by rw [requireIcon, himage, andThen_error]
  simp only [List.mem_cons, List.not_mem_nil, or_false] at hi
  obtain rfl | rfl | rfl | rfl | rfl | rfl | rfl := hi
  · exact ⟨_, _, rfl, himage⟩
  · exact ⟨_, _, rfl, himage⟩
  · exact ⟨_, _, rfl, hicon⟩
  · exact ⟨_, _, rfl, himage⟩
  · exact ⟨_, _, rfl, himage⟩
  · exact ⟨_, _, rfl, hindexed⟩
  · exact ⟨_, _, rfl, hindexed⟩

/-- READ_INDEX and READ_PALETTE of a TRUECOLOR Image (R352). -/
theorem emitter_of_truecolor (cfg : Config) {img : Image} (hrepr : img.repr = .truecolor)
    (hi : i ∈ [.readIndex, .readPalette]) :
    ∃ check parts, emitter cfg i = some (check, parts) ∧ ∀ p, check img p = .error .wrongRepr p := by
  have hindexed : ∀ p, requireIndexed img p = .error .wrongRepr p := fun p => by simp [requireIndexed, require, hrepr]
  simp only [List.mem_cons, List.not_mem_nil, or_false] at hi
  obtain rfl | rfl := hi
  · exact ⟨_, _, rfl, hindexed⟩
  · exact ⟨_, _, rfl, hindexed⟩

/-- Samples put out in the order of the internal buffer: four bytes each (R359, R360). -/
theorem rgba_layout {samples : List Sample} {out : List Byte} (hout : out = (samples.map rgba).flatten) :
    out.length = 4 * samples.length ∧
      ∀ (i : Nat) (p : Sample), samples[i]? = some p → (out.drop (4 * i)).take 4 = [p.r, p.g, p.b, p.a] := by
  rw [← List.flatMap_def] at hout
  subst hout
  refine ⟨?_, fun i p hp => take_drop_flatMap (f := rgba) (fun _ => rfl) hp⟩
  rw [List.flatMap_def, flatten_length_of_rows (k := 4) (by simp [rgba]), List.length_map, Nat.mul_comm]

end Emitters

/-! ### The operand of RLE_DECODE and RLE_ENCODE (R362, R363) -/

section BadArg
variable {s : State}

theorem exec_rleDecode_of_ready (hready : s.Ready) :
    exec .rleDecode s = wholeCommand (beginRleDecode (prologue s)) :=
  runCommand_of_ready hready fun s => wholeCommand (beginRleDecode s)

theorem exec_rleDecode_of_badArg (hready : s.Ready) (harg : s.arg0.toNat < 1 ∨ 3 * 65535 < s.arg0.toNat) :
    ∃ t, exec .rleDecode s = .next t ∧ Ended t (Status.failure .badArg) 0 [] ∧ KeepsAll s t := by
  refine ended_of_error (keepsAll_prologue s) (q := (prologue s).ports) ?_ rfl rfl
  have hcheck : decide (1 ≤ (prologue s).arg0.toNat ∧ (prologue s).arg0.toNat ≤ lineBound) = false :=
    decide_eq_false (by simp only [prologue_arg0, lineBound]; omega)
  rw [exec_rleDecode_of_ready hready, beginRleDecode, require_false hcheck]
  exact bodyLoop_of_no_body (by simp)

theorem exec_rleEncode_of_ready (hready : s.Ready) : exec .rleEncode s = conclude (prologue s)
    ((require (decide (1 ≤ s.arg0.toNat)) .badArg (prologue s).ports).andThen fun _ p =>
      (readData s.arg1.toNat p).andThen fun d p => write (rleEncode d s.arg0.toNat) p) noEffect :=
  runCommand_of_ready hready fun s => conclude s ((require (decide (1 ≤ s.arg0.toNat)) .badArg s.ports).andThen
    fun _ p => (readData s.arg1.toNat p).andThen fun d p => write (rleEncode d s.arg0.toNat) p) noEffect

theorem exec_rleEncode_of_badArg (hready : s.Ready) (harg : s.arg0.toNat < 1) :
    ∃ t, exec .rleEncode s = .next t ∧ Ended t (Status.failure .badArg) 0 [] ∧ KeepsAll s t := by
  refine ended_of_error (keepsAll_prologue s) (q := (prologue s).ports) ?_ rfl rfl
  rw [exec_rleEncode_of_ready hready, require_false (decide_eq_false (by omega)), andThen_error, conclude_error]

end BadArg

end Sys2Proof.Machine

namespace Sys2Proof.Proofs

open Sys2Proof Sys2Proof.Machine Host

/-- Settles O6: the core's turn performs what the opcode decodes to. -/
theorem stepRunsAcceptedCommand : Obligations.StepRunsAcceptedCommand := by
  unfold Obligations.StepRunsAcceptedCommand
  intro s op rest hphase hhost
  have hready : State.Ready { s with host := rest } := by simp [State.Ready, hphase, Phase.ready]
  rw [step_of_accepted hphase hhost, performCommand, decodeCommand_setWidth]
  cases decodeOpcode op with
  | some i => exact ⟨fun j hj => by rw [Except.ok.inj hj], nofun⟩
  | none =>
    obtain ⟨t, ht, hended, hkeeps⟩ := execUnknownOpcode_of_ready hready
    obtain ⟨hstatus, -⟩ := id hended
    exact ⟨nofun, fun _ => ⟨t, ht, hended, by rw [hstatus]; decide, hkeeps⟩⟩

/-- Settles O13: the prologue and the epilogue. -/
theorem nopSucceeds : Obligations.NopSucceeds := by
  unfold Obligations.NopSucceeds
  intro s hready
  obtain ⟨t, ht, hended, hkeeps⟩ := ended_of_success (keepsAll_prologue s) (exec_nop_of_ready hready) rfl rfl
  obtain ⟨hstatus, -⟩ := id hended
  exact ⟨t, ht, hended, by rw [hstatus]; decide, hkeeps⟩

/-- Settles O14: the Image is gone, so WRITE_BMP finds none. -/
theorem clearDropsTheImage : Obligations.ClearDropsTheImage := by
  unfold Obligations.ClearDropsTheImage
  intro s hready
  obtain ⟨t, ht, himage, hended, hready', hresults, hoperands⟩ := exec_clear_of_ready hready
  have hrepr := clearedImage_repr s.freeIx s.image
  obtain ⟨hw, hh, hb⟩ := clearedImage_geometry s.freeIx s.image
  obtain ⟨check, parts, hemitter, hcheck⟩ :=
    emitter_of_absent t.cfg (img := t.image) (i := .writeBmp) (by rw [himage, hrepr]) (by simp)
  obtain ⟨u, hu, hended', -⟩ := exec_emitter_of_error hready' hemitter hcheck
  obtain ⟨hstatus, -⟩ := id hended'
  rw [← himage] at hrepr hw hh hb
  exact ⟨t, ht, hended, hrepr, hw, hh, hb, hresults, hoperands,
    fun habsent hok => by rw [himage, clearedImage_of_absent _ habsent hok],
    u, hu, hended', by rw [hstatus]; decide⟩

/-- Settles O32: one request of all the indices. -/
theorem readIndexOutputsIndices : Obligations.ReadIndexOutputsIndices := by
  unfold Obligations.ReadIndexOutputsIndices
  intro s hready ha hrepr hwf
  obtain ⟨t, ht, hended, hkeeps⟩ := exec_emitter_of_answering hready ha (i := .readIndex) rfl fun p =>
    requireIndexed_of_wf p hrepr hwf
  rw [List.flatten_singleton] at hended
  obtain ⟨-, hidx, -⟩ := hwf
  exact ⟨t, ht, hended, by rw [(ended_output hended).1]; exact hidx, hkeeps⟩

/-- Settles O33: one request of four bytes for each entry. -/
theorem readPaletteOutputsEntries : Obligations.ReadPaletteOutputsEntries := by
  unfold Obligations.ReadPaletteOutputsEntries
  intro s hready ha hrepr hwf
  obtain ⟨t, ht, hended, hkeeps⟩ := exec_emitter_of_answering hready ha (i := .readPalette) rfl fun p =>
    requireIndexed_of_wf p hrepr hwf
  obtain ⟨hout, hended⟩ := ended_output hended
  obtain ⟨hlen, hentries⟩ := rgba_layout hout
  obtain ⟨hpal, -⟩ := hwf
  exact ⟨t, ht, hended, by rw [hlen, hpal], hentries, hkeeps⟩

/-- Settles O34: one request of four bytes for each pixel. -/
theorem readPixelsOutputsPixels : Obligations.ReadPixelsOutputsPixels := by
  unfold Obligations.ReadPixelsOutputsPixels
  intro s hready ha hrepr hwf
  obtain ⟨t, ht, hended, hkeeps⟩ := exec_emitter_of_answering hready ha (i := .readPixels) rfl fun p =>
    requireImage_of_wf p hrepr hwf
  obtain ⟨hout, hended⟩ := ended_output hended
  obtain ⟨hlen, hpixels⟩ := rgba_layout hout
  obtain ⟨-, -, hpix⟩ := hwf
  exact ⟨t, ht, hended, by rw [hlen, hpix]; rfl, hpixels, hkeeps⟩

/-- Settles O35: each of these checks stands before the command's first request. -/
theorem commandMisuseEndsAtOnce : Obligations.CommandMisuseEndsAtOnce := by
  unfold Obligations.CommandMisuseEndsAtOnce
  refine fun s i hready => ⟨fun hi habsent => ?_, fun hi hrepr => ?_, ?_⟩
  · obtain ⟨check, parts, hemitter, hcheck⟩ := emitter_of_absent s.cfg habsent hi
    exact exec_emitter_of_error hready hemitter hcheck
  · obtain ⟨check, parts, hemitter, hcheck⟩ := emitter_of_truecolor s.cfg hrepr hi
    exact exec_emitter_of_error hready hemitter hcheck
  · rintro (⟨rfl, harg⟩ | ⟨rfl, harg⟩)
    · exact exec_rleDecode_of_badArg hready harg
    · exact exec_rleEncode_of_badArg hready harg

end Sys2Proof.Proofs
end

section
/-! PROOFS. The commands that take host data (spec/45_commands.md R356, R357, R363): the load validation of R368 in its
order, the data that is there or short (R402), and the Images that LOAD_INDEXED and LOAD_TRUECOLOR commit (R369). -/

namespace Sys2Proof.Machine

open Host

/-! ### The load validation (R368) -/

section Checks
variable {s : State} {e : CmdError}

/-- The last check of a list of checks. -/
theorem require_eq_elim {c : Bool} {P : Prop} [Decidable P] {p : Ports} (hc : c = true ↔ ¬ P) :
    require c e p = (if P then some e else none).elim (.ok () p) fun e => .error e p := by
  by_cases hP : P
  · rw [require_false (Bool.eq_false_iff.mpr fun ht => hc.mp ht hP), if_pos hP, Option.elim_some]
  · rw [require_true (hc.mpr hP), if_neg hP, Option.elim_none]

/-- The checks run in the order of `loadError`. -/
theorem checkLoad_eq (s : State) (p : Ports) :
    checkLoad s.cfg (loadGeometry s) p = (loadError s).elim (.ok () p) fun e => .error e p :=
  require_andThen_eq (decide_eq_true_iff.trans (by simp only [loadGeometry]; omega)) <|
  require_andThen_eq (decide_eq_true_iff.trans Nat.not_lt.symm) <|
  require_eq_elim (decide_eq_true_iff.trans Nat.not_lt.symm)

/-- Operands pass the checks with a height in R40's range exactly when none of R368 fails. -/
theorem loadAccepted_iff : LoadAccepted s ↔ loadError s = none ∧ s.pHeight.toNat ≤ 65535 := by
  unfold loadError LoadAccepted geometryOk
  split_ifs with hzero hbpl hlarge
  · simp; omega
  · simp; omega
  · simp; omega
  · simp only [true_and]; omega

end Checks

/-! ### The data of the input (R73, R402) -/

section Data
variable {p : Ports} {n : Nat}

/-- The ports after data of `n` bytes. -/
def Ports.taken (n : Nat) (p : Ports) : Ports := advance n p.answered

@[simp] theorem taken_input (n : Nat) (p : Ports) : (p.taken n).input = p.input.drop n := rfl
@[simp] theorem taken_cursor (n : Nat) (p : Ports) : (p.taken n).cursor = p.cursor + n := rfl
@[simp] theorem taken_output (n : Nat) (p : Ports) : (p.taken n).output = p.output := rfl

theorem taken_answering (ha : p.Answering) (n : Nat) : (p.taken n).Answering := answered_answering ha

theorem readData_of_enough (ha : p.Answering) (hn : n ≤ p.input.length) :
    readData n p = .ok (p.input.take n) (p.taken n) := by
  rw [readData, readExact_of_enough ha hn, andThen_ok]
  rfl

theorem readData_of_short (ha : p.Answering) (hn : p.input.length < n) :
    readData n p = .error .shortData (p.taken p.input.length) := by
  rw [readData, readExact_of_short ha hn, andThen_ok]
  rfl

end Data

/-! ### The commands as their pieces -/

section Commands
variable {s : State}

/-- LOAD_INDEXED up to its commit. -/
def loadIndexedReply (s : State) (p : Ports) : Reply (List Byte × List Byte) :=
  (checkLoad s.cfg (loadGeometry s) p).andThen fun _ p =>
    (readData 768 p).andThen fun pal p =>
    (readData (s.pWidth.toNat * s.pHeight.toNat) p).andThen fun idx p =>
    (requireHeight s.pHeight.toNat p).andThen fun _ p => .ok (pal, idx) p

/-- LOAD_TRUECOLOR up to its commit. -/
def loadTruecolorReply (s : State) (p : Ports) : Reply (List Byte) :=
  (checkLoad s.cfg (loadGeometry s) p).andThen fun _ p =>
    (readData (4 * (s.pWidth.toNat * s.pHeight.toNat)) p).andThen fun d p =>
    (requireHeight s.pHeight.toNat p).andThen fun _ p => .ok d p

theorem exec_loadIndexed_of_ready (hready : s.Ready) : exec .loadIndexed s =
    conclude (prologue s) (loadIndexedReply s (prologue s).ports) fun r s =>
      commitImage (loadedImage s .indexed (paletteOfBytes r.1) r.2 (depalettize (paletteOfBytes r.1) r.2)) s :=
  runCommand_of_ready hready fun s => conclude s (loadIndexedReply s s.ports) fun r s =>
    commitImage (loadedImage s .indexed (paletteOfBytes r.1) r.2 (depalettize (paletteOfBytes r.1) r.2)) s

theorem exec_loadTruecolor_of_ready (hready : s.Ready) : exec .loadTruecolor s =
    conclude (prologue s) (loadTruecolorReply s (prologue s).ports) fun d s =>
      commitImage (loadedImage s .truecolor [] [] (samplesOfBytes (s.pWidth.toNat * s.pHeight.toNat) d)) s :=
  runCommand_of_ready hready fun s => conclude s (loadTruecolorReply s s.ports) fun d s =>
    commitImage (loadedImage s .truecolor [] [] (samplesOfBytes (s.pWidth.toNat * s.pHeight.toNat) d)) s

/-- A LOAD whose piece fails keeps everything but STATUS, the counts and the scratch (R410). -/
theorem ended_of_load_error {i : Instr} {e : CmdError} {q : Ports} {used : Nat} (hready : s.Ready)
    (hi : i = .loadIndexed ∧ loadIndexedReply s (prologue s).ports = .error e q ∨
      i = .loadTruecolor ∧ loadTruecolorReply s (prologue s).ports = .error e q)
    (hused : q.cursor = used) (hout : q.output = []) :
    ∃ t, exec i s = .next t ∧ Ended t (Status.failure e) used [] ∧ KeepsAll s t := by
  refine ended_of_error (keepsAll_prologue s) ?_ hused hout
  obtain ⟨rfl, hr⟩ | ⟨rfl, hr⟩ := hi
  · rw [exec_loadIndexed_of_ready hready, hr, conclude_error]
  · rw [exec_loadTruecolor_of_ready hready, hr, conclude_error]

end Commands

section Replies
variable {s : State} {p : Ports} {e : CmdError} {n : Nat}

theorem loadIndexedReply_of_loadError (he : loadError s = some e) : loadIndexedReply s p = .error e p := by
  rw [loadIndexedReply, checkLoad_eq, he]
  rfl

theorem loadTruecolorReply_of_loadError (he : loadError s = some e) : loadTruecolorReply s p = .error e p := by
  rw [loadTruecolorReply, checkLoad_eq, he]
  rfl

/-- The data is short in the palette's 768 bytes or in the indices after them; what there is is consumed. -/
theorem loadIndexedReply_of_short (ha : p.Answering) (hpass : loadError s = none)
    (hshort : p.input.length < 768 + s.pWidth.toNat * s.pHeight.toNat) :
    ∃ q, loadIndexedReply s p = .error .shortData q ∧ q.cursor = p.cursor + p.input.length ∧ q.output = p.output := by
  rw [loadIndexedReply, checkLoad_eq, hpass, Option.elim_none, andThen_ok]
  by_cases hpal : 768 ≤ p.input.length
  · rw [readData_of_enough ha hpal, andThen_ok, readData_of_short (taken_answering ha 768) (by simp; omega),
      andThen_error]
    exact ⟨_, rfl, by simp; omega, rfl⟩
  · rw [readData_of_short ha (Nat.not_le.mp hpal), andThen_error]
    exact ⟨_, rfl, rfl, rfl⟩

theorem loadTruecolorReply_of_short (ha : p.Answering) (hpass : loadError s = none)
    (hshort : p.input.length < 4 * (s.pWidth.toNat * s.pHeight.toNat)) :
    loadTruecolorReply s p = .error .shortData (p.taken p.input.length) := by
  rw [loadTruecolorReply, checkLoad_eq, hpass, Option.elim_none, andThen_ok, readData_of_short ha hshort, andThen_error]

/-- With its data there, LOAD_INDEXED commits unless the height is above 65535 (log 14). -/
theorem loadIndexedReply_of_enough (ha : p.Answering) (hpass : loadError s = none)
    (hlen : 768 + s.pWidth.toNat * s.pHeight.toNat ≤ p.input.length) :
    ∃ q, q.cursor = p.cursor + (768 + s.pWidth.toNat * s.pHeight.toNat) ∧ q.output = p.output ∧
      loadIndexedReply s p = (requireHeight s.pHeight.toNat q).andThen fun _ q =>
        .ok (p.input.take 768, (p.input.drop 768).take (s.pWidth.toNat * s.pHeight.toNat)) q := by
  rw [loadIndexedReply, checkLoad_eq, hpass, Option.elim_none, andThen_ok, readData_of_enough ha (by omega), andThen_ok,
    readData_of_enough (taken_answering ha 768) (by simp; omega), andThen_ok]
  exact ⟨(p.taken 768).taken (s.pWidth.toNat * s.pHeight.toNat), by simp [Nat.add_assoc], rfl, rfl⟩

theorem loadTruecolorReply_of_enough (ha : p.Answering) (hpass : loadError s = none)
    (hlen : 4 * (s.pWidth.toNat * s.pHeight.toNat) ≤ p.input.length) :
    loadTruecolorReply s p =
      (requireHeight s.pHeight.toNat (p.taken (4 * (s.pWidth.toNat * s.pHeight.toNat)))).andThen fun _ q =>
        .ok (p.input.take (4 * (s.pWidth.toNat * s.pHeight.toNat))) q := by
  rw [loadTruecolorReply, checkLoad_eq, hpass, Option.elim_none, andThen_ok, readData_of_enough ha hlen, andThen_ok]

end Replies

/-! ### How the commands end -/

section Ends
variable {s : State}

theorem exec_loadIndexed_of_short (hready : s.Ready) (ha : s.PortsAnswer) (hpass : loadError s = none)
    (hshort : s.ports.input.length < 768 + s.pWidth.toNat * s.pHeight.toNat) :
    ∃ t, exec .loadIndexed s = .next t ∧ Ended t (Status.failure .shortData) s.ports.input.length [] ∧
      KeepsAll s t := by
  obtain ⟨q, hreply, hcursor, hout⟩ := loadIndexedReply_of_short (p := (prologue s).ports) ha hpass hshort
  exact ended_of_load_error hready (.inl ⟨rfl, hreply⟩) (by simpa using hcursor) hout

theorem exec_loadTruecolor_of_short (hready : s.Ready) (ha : s.PortsAnswer) (hpass : loadError s = none)
    (hshort : s.ports.input.length < 4 * (s.pWidth.toNat * s.pHeight.toNat)) :
    ∃ t, exec .loadTruecolor s = .next t ∧ Ended t (Status.failure .shortData) s.ports.input.length [] ∧
      KeepsAll s t :=
  ended_of_load_error hready (.inr ⟨rfl, loadTruecolorReply_of_short (p := (prologue s).ports) ha hpass hshort⟩)
    (by simp) rfl

/-- A height that IMG_HEIGHT cannot hold is turned away after the data (log 14). -/
theorem exec_loadIndexed_of_tall (hready : s.Ready) (ha : s.PortsAnswer) (hpass : loadError s = none)
    (htall : 65535 < s.pHeight.toNat) (hlen : 768 + s.pWidth.toNat * s.pHeight.toNat ≤ s.ports.input.length) :
    ∃ t, exec .loadIndexed s = .next t ∧
      Ended t (Status.failure .tooLarge) (768 + s.pWidth.toNat * s.pHeight.toNat) [] ∧ KeepsAll s t := by
  obtain ⟨q, hcursor, hout, hreply⟩ := loadIndexedReply_of_enough (p := (prologue s).ports) ha hpass hlen
  rw [requireHeight_of_gt htall, andThen_error] at hreply
  exact ended_of_load_error hready (.inl ⟨rfl, hreply⟩) (by simpa using hcursor) hout

theorem exec_loadTruecolor_of_tall (hready : s.Ready) (ha : s.PortsAnswer) (hpass : loadError s = none)
    (htall : 65535 < s.pHeight.toNat) (hlen : 4 * (s.pWidth.toNat * s.pHeight.toNat) ≤ s.ports.input.length) :
    ∃ t, exec .loadTruecolor s = .next t ∧
      Ended t (Status.failure .tooLarge) (4 * (s.pWidth.toNat * s.pHeight.toNat)) [] ∧ KeepsAll s t := by
  have hreply := loadTruecolorReply_of_enough (p := (prologue s).ports) ha hpass hlen
  rw [requireHeight_of_gt htall, andThen_error] at hreply
  exact ended_of_load_error hready (.inr ⟨rfl, hreply⟩) (by simp) rfl

theorem exec_rleEncode_of_short (hready : s.Ready) (ha : s.PortsAnswer) (harg : 1 ≤ s.arg0.toNat)
    (hshort : s.ports.input.length < s.arg1.toNat) :
    ∃ t, exec .rleEncode s = .next t ∧ Ended t (Status.failure .shortData) s.ports.input.length [] ∧ KeepsAll s t := by
  refine ended_of_error (keepsAll_prologue s) (q := (prologue s).ports.taken s.ports.input.length) ?_ (by simp) rfl
  rw [exec_rleEncode_of_ready hready, require_true (decide_eq_true harg), andThen_ok,
    readData_of_short (p := (prologue s).ports) ha hshort, andThen_error, conclude_error]
  rfl

theorem exec_rleEncode_of_enough (hready : s.Ready) (ha : s.PortsAnswer) (harg : 1 ≤ s.arg0.toNat)
    (hlen : s.arg1.toNat ≤ s.ports.input.length) :
    ∃ t, exec .rleEncode s = .next t ∧
      Ended t Status.success s.arg1.toNat (rleEncode (s.ports.input.take s.arg1.toNat) s.arg0.toNat) ∧
      KeepsAll s t := by
  have hexec := exec_rleEncode_of_ready hready
  rw [require_true (decide_eq_true harg), andThen_ok, readData_of_enough (p := (prologue s).ports) ha hlen, andThen_ok,
    write, writeAll_of_answering _ (taken_answering (by exact ha) _), conclude_ok] at hexec
  exact ended_of_success (keepsAll_prologue s) hexec (by simp) (by simp)

end Ends

/-! ### The Images (R356, R357, R369) -/

section Images
variable {s : State}

/-- LOAD_INDEXED commits the palette of the first 768 bytes and the indices after them. -/
theorem exec_loadIndexed_of_accepted (hready : s.Ready) (ha : s.PortsAnswer) (hacc : LoadAccepted s)
    (hlen : 768 + s.pWidth.toNat * s.pHeight.toNat ≤ s.ports.input.length) :
    ∃ t pal idx, exec .loadIndexed s = .next t ∧ pal = paletteOfBytes (s.ports.input.take 768) ∧
      idx = (s.ports.input.drop 768).take (s.pWidth.toNat * s.pHeight.toNat) ∧
      t.image = loadedImage s .indexed pal idx (depalettize pal idx) ∧
      Ended t Status.success (768 + s.pWidth.toNat * s.pHeight.toNat) [] ∧ KeepsResults s t ∧ KeepsOperands s t := by
  obtain ⟨hpass, hheight⟩ := loadAccepted_iff.mp hacc
  obtain ⟨q, hcursor, hout, hreply⟩ := loadIndexedReply_of_enough (p := (prologue s).ports) ha hpass hlen
  rw [requireHeight_of_le hheight, andThen_ok] at hreply
  have hexec := exec_loadIndexed_of_ready hready
  rw [hreply, conclude_ok] at hexec
  exact ⟨_, _, _, hexec, rfl, rfl, commitImage_image_of_indexed _ _ rfl, ended_endCommand (by simpa using hcursor) hout,
    by simp [KeepsResults], by simp [KeepsOperands]⟩

/-- LOAD_TRUECOLOR commits the samples of its data. -/
theorem exec_loadTruecolor_of_accepted (hready : s.Ready) (ha : s.PortsAnswer) (hacc : LoadAccepted s)
    (hlen : 4 * (s.pWidth.toNat * s.pHeight.toNat) ≤ s.ports.input.length) :
    ∃ t, exec .loadTruecolor s = .next t ∧ t.image.repr = .truecolor ∧ t.image.width = s.pWidth ∧
      t.image.height = s.pHeight ∧ t.image.bpl = s.pBpl ∧
      t.image.pix = samplesOfBytes (s.pWidth.toNat * s.pHeight.toNat)
        (s.ports.input.take (4 * (s.pWidth.toNat * s.pHeight.toNat))) ∧
      Ended t Status.success (4 * (s.pWidth.toNat * s.pHeight.toNat)) [] ∧ KeepsResults s t ∧ KeepsOperands s t := by
  obtain ⟨hpass, hheight⟩ := loadAccepted_iff.mp hacc
  have hreply := loadTruecolorReply_of_enough (p := (prologue s).ports) ha hpass hlen
  rw [requireHeight_of_le hheight, andThen_ok] at hreply
  have hexec := exec_loadTruecolor_of_ready hready
  rw [hreply, conclude_ok] at hexec
  exact ⟨_, hexec, by simp [loadedImage], by simp [loadedImage], by simp [loadedImage], by simp [loadedImage],
    by simp [loadedImage], ended_endCommand (by simp) rfl, by simp [KeepsResults], by simp [KeepsOperands]⟩

/-- Entry `i` of a palette is the `i`-th triple of its bytes, with R225's alpha. -/
theorem paletteOfBytes_getElem? (bs : List Byte) {i : Nat} (hi : i < 256) : (paletteOfBytes bs)[i]? =
    some ⟨byteAt bs (3 * i), byteAt bs (3 * i + 1), byteAt bs (3 * i + 2), if i = 0 then 0#8 else 255#8⟩ := by
  rw [paletteOfBytes, forceAlpha_getElem?, List.getElem?_map, rgbTriples_getElem? _ hi]
  rfl

/-- Sample `i` is the `i`-th group of four bytes. -/
theorem samplesOfBytes_getElem? (d : List Byte) {n i : Nat} (hi : i < n) : (samplesOfBytes n d)[i]? =
    some ⟨byteAt d (4 * i), byteAt d (4 * i + 1), byteAt d (4 * i + 2), byteAt d (4 * i + 3)⟩ := by
  induction n generalizing d i with
  | zero => omega
  | succ n ih =>
    cases i with
    | zero => rfl
    | succ i =>
      rw [samplesOfBytes, List.getElem?_cons_succ, ih _ (by omega)]
      simp only [byteAt_drop, show ∀ k, 4 + (4 * i + k) = 4 * (i + 1) + k by omega,
        show 4 + 4 * i = 4 * (i + 1) by omega]

end Images

end Sys2Proof.Machine

namespace Sys2Proof.Proofs

open Sys2Proof Sys2Proof.Machine Host

/-- Settles O25: both commands run the checks of `loadError` before they read. -/
theorem loadValidationInOrder : Obligations.LoadValidationInOrder := by
  unfold Obligations.LoadValidationInOrder
  intro s i e hi hready he
  exact ended_of_load_error hready
    (hi.imp (fun hi => ⟨hi, loadIndexedReply_of_loadError he⟩) fun hi => ⟨hi, loadTruecolorReply_of_loadError he⟩)
    rfl rfl

/-- Settles O26: the data is read after the checks, and the bound on the height comes after the data. -/
theorem shortDataFails : Obligations.ShortDataFails := by
  unfold Obligations.ShortDataFails
  exact fun s hready ha => ⟨exec_loadIndexed_of_short hready ha, exec_loadTruecolor_of_short hready ha,
    exec_rleEncode_of_short hready ha, loadAccepted_iff, fun hpass htall =>
      ⟨exec_loadIndexed_of_tall hready ha hpass htall, exec_loadTruecolor_of_tall hready ha hpass htall⟩⟩

/-- Settles O28: one request for the data and one for its encoding. -/
theorem rleEncodeOutputsCodes : Obligations.RleEncodeOutputsCodes := by
  unfold Obligations.RleEncodeOutputsCodes
  exact fun s hready ha harg hlen => exec_rleEncode_of_enough hready ha harg hlen

/-- Settles O23: the palette's entries are triples of the first 768 bytes, the indices follow. -/
theorem loadIndexedBuildsImage : Obligations.LoadIndexedBuildsImage := by
  unfold Obligations.LoadIndexedBuildsImage
  intro s hready ha hacc hlen
  obtain ⟨t, pal, idx, ht, hpal, hidx, himage, hended, hresults, hoperands⟩ :=
    exec_loadIndexed_of_accepted hready ha hacc hlen
  refine ⟨t, ht, hended, ?_⟩
  rw [himage]
  refine ⟨rfl, rfl, rfl, rfl, hpal ▸ paletteOfBytes_length _, fun i hi => ?_, hidx, rfl, hresults, hoperands⟩
  have hentry := paletteOfBytes_getElem? (s.ports.input.take 768) hi
  rw [byteAt_take (by omega), byteAt_take (by omega), byteAt_take (by omega), ← hpal] at hentry
  exact hentry

/-- Settles O24: the pixels are groups of four bytes. -/
theorem loadTruecolorBuildsImage : Obligations.LoadTruecolorBuildsImage := by
  unfold Obligations.LoadTruecolorBuildsImage
  intro s hready ha hacc hlen
  obtain ⟨t, ht, hrepr, hw, hh, hb, hpix, hended, hresults, hoperands⟩ :=
    exec_loadTruecolor_of_accepted hready ha hacc hlen
  refine ⟨t, ht, hended, hrepr, hw, hh, hb, by rw [hpix, samplesOfBytes_length], fun i hi => ?_, hresults, hoperands⟩
  rw [hpix, samplesOfBytes_getElem? _ hi, byteAt_take (by omega), byteAt_take (by omega), byteAt_take (by omega),
    byteAt_take (by omega)]
  rfl

end Sys2Proof.Proofs
end

section
/-! PROOFS. A command moved code by code comes to what it comes to whole (spec/45_commands.md R350,
spec/41_rle_decoder.md R184; log 9): after its beginning both grains run the same codes. -/

namespace Sys2Proof.Machine

open Host

/-- No command waits to be begun. -/
def Begun (t : State) : Prop := ∀ op, t.phase ≠ .accepted op

section Grain
variable {s : State} {op : Byte} {o : Outcome State Fault Refusal}

theorem failsInto_begun (s : State) : FailsInto s Begun := ⟨fun _ _ => nofun, fun _ => nofun⟩

theorem yields_continueBody_begun (r : Reply (Engine × List Byte)) : Yields (continueBody s r) Begun :=
  yields_continueBody (failsInto_begun s) (fun _ _ _ _ _ => nofun) fun _ _ _ _ _ =>
    yields_finishBody (failsInto_begun s) (fun _ => nofun) (fun _ => nofun) fun _ _ _ _ => nofun

theorem yields_beginDecode_begun : Yields (beginDecode s) Begun :=
  yields_beginDecode (failsInto_begun s) (fun _ _ _ => failsInto_begun _) (fun _ _ _ _ => nofun)
    fun _ _ _ _ => yields_continueBody_begun _

theorem yields_codeStep_begun {e : Engine} (hs : s.phase = .body e) : Yields (codeStep runCode s) Begun :=
  yields_codeStep runsCodes_runCode hs (failsInto_begun s) fun _ _ _ _ _ => yields_continueBody_begun _

/-- A fetched code is a code form, which `exec` and `runCode` give the same meaning. -/
theorem codeStep_exec (s : State) : codeStep exec s = codeStep runCode s := by
  unfold codeStep
  split
  · cases hf : fetchCode s.ports with
    | ok c q =>
      cases c with
      | none => rfl
      | some i => obtain ⟨v, rfl⟩ | ⟨n, v, rfl⟩ := fetchCode_codeForm hf <;> rfl
    | _ => rfl
  · rfl

/-- Once a command has begun, the core's moves by one code are the passes of its body. -/
theorem codeMoves_eq_bodyLoop (n : Nat) (h : Begun s) : codeMoves n s = bodyLoop n s := by
  induction n generalizing s with
  | zero => rfl
  | succ n ih =>
    cases hs : s.phase with
    | accepted op => exact absurd hs (h op)
    | body e =>
      have hbegun := yields_codeStep_begun hs
      simp only [codeMoves, bodyLoop, coreMove, hs, codeStep_exec]
      cases hc : codeStep runCode s with
      | next t => exact ih (hbegun t hc)
      | fault why => rfl
      | refused why => rfl
    | idle | stalled =>
      have hno : ∀ e, s.phase ≠ .body e := by simp [hs]
      have hmove : codeMoves (n + 1) s = codeMoves n s := by simp only [codeMoves, coreMove, hs]
      rw [hmove, ih h, bodyLoop_of_no_body hno, bodyLoop_of_no_body hno]

theorem codeMoves_one (s : State) : codeMoves 1 s = coreMove .code s := by
  unfold codeMoves
  cases coreMove .code s <;> rfl

/-- A command begun by one move, and its codes after it. -/
theorem codeMoves_of_wholeCommand (hbegin : coreMove .code s = o) (h : Yields o Begun) :
    ∃ n, codeMoves n s = wholeCommand o := by
  cases o with
  | next t =>
    refine ⟨t.ports.input.length + 1 + 1, ?_⟩
    rw [codeMoves, hbegin]
    exact codeMoves_eq_bodyLoop _ (yields_next.mp h)
  | fault why => exact ⟨1, (codeMoves_one s).trans hbegin⟩
  | refused why => exact ⟨1, (codeMoves_one s).trans hbegin⟩

theorem coreMove_code_of_accepted (hs : s.phase = .accepted op) : coreMove .code s = beginCommand op s := by
  simp only [coreMove, hs]

end Grain

end Sys2Proof.Machine

namespace Sys2Proof.Proofs

open Sys2Proof Sys2Proof.Machine Host

/-- Settles O8: DECODE and RLE_DECODE go on code by code; every other command is one move. -/
theorem codeGrainAgreesWithWholeCommand : Obligations.CodeGrainAgreesWithWholeCommand := by
  unfold Obligations.CodeGrainAgreesWithWholeCommand
  intro s op i hs hop
  have hready : s.Ready := by simp [State.Ready, hs, Phase.ready]
  have hmove := coreMove_code_of_accepted hs
  cases i with
  | decode =>
    have hbegin : beginCommand op s = beginDecode (prologue s) := by
      simp only [beginCommand, hop, runCommand_of_ready hready]
    obtain ⟨n, hn⟩ := codeMoves_of_wholeCommand (hmove.trans hbegin) yields_beginDecode_begun
    exact ⟨n, hn.trans (exec_decode_of_ready hready).symm⟩
  | rleDecode =>
    have hbegin : beginCommand op s = beginRleDecode (prologue s) := by
      simp only [beginCommand, hop, runCommand_of_ready hready]
    obtain ⟨n, hn⟩ := codeMoves_of_wholeCommand (hmove.trans hbegin) (yields_continueBody_begun _)
    exact ⟨n, hn.trans (exec_rleDecode_of_ready hready).symm⟩
  | _ =>
    refine ⟨1, (codeMoves_one s).trans (hmove.trans ?_)⟩
    simp only [beginCommand, performCommand, hop]

end Sys2Proof.Proofs
end

section
/-! PROOFS. On answering ports a body is R184's loops as Reference.lean writes them out, with any consumer: the
scanlines it emits, where it stops, and the bytes it leaves (spec/41_rle_decoder.md R184 to R192); RLE_DECODE ends with them. -/

namespace Sys2Proof.Machine

open Host

/-! ### Requests that only take input -/

/-- `q` is left of the ports `p` on answering ports after all the input before `left` was taken and nothing sent. -/
structure Ports.TakenTo (p : Ports) (left : List Byte) (q : Ports) : Prop where
  answering : q.Answering
  input : q.input = left
  output : q.output = p.output
  count : q.cursor + q.input.length = p.cursor + p.input.length

section Fetch
variable {p q r : Ports} {left left' : List Byte}

theorem takenTo_trans (h : p.TakenTo left q) (h' : q.TakenTo left' r) : p.TakenTo left' r :=
  ⟨h'.answering, h'.input, h'.output.trans h.output, h'.count.trans h.count⟩

/-- A byte read is the first of the input, if there is one (R74). -/
theorem readByte_of_answering (ha : p.Answering) :
    ∃ q, readByte p = .ok p.input.head? q ∧ p.TakenTo p.input.tail q := by
  cases hin : p.input with
  | nil => exact ⟨_, readByte_of_nil ha hin, answered_answering ha, hin, rfl, rfl⟩
  | cons b rest =>
    refine ⟨_, readByte_of_cons ha hin, answered_answering ha, rfl, rfl, ?_⟩
    rw [hin, List.length_cons]
    simp only
    omega

/-- A fetch on answering ports comes to a code or to the end of the stream (R183, R185, R186). -/
theorem fetchCode_takes (ha : p.Answering) : ∃ c q, fetchCode p = .ok c q ∧ p.TakenTo q.input q := by
  obtain ⟨q, hread, hq⟩ := readByte_of_answering ha
  rw [fetchCode, hread, andThen_ok]
  cases p.input.head? with
  | none => exact ⟨none, q, rfl, hq.answering, rfl, hq.output, hq.count⟩
  | some b =>
    simp only
    split
    · obtain ⟨q', hread', hq'⟩ := readByte_of_answering hq.answering
      have htaken := takenTo_trans hq hq'
      rw [hread', andThen_ok]
      cases q.input.head? <;> exact ⟨_, q', rfl, htaken.answering, rfl, htaken.output, htaken.count⟩
    · exact ⟨_, q, rfl, hq.answering, rfl, hq.output, hq.count⟩

end Fetch

section Traces
variable {cfg : Config} {s : State} {e e' : Engine} {line line' : List Byte} {rows : List (List Byte)} {p q : Ports}
  {all : List (List Byte) × RefBody} {total : Nat}

/-! ### The scanlines emitted (R190 to R192) -/

/-- The consumer has taken the scanlines `rows`: emitRaw has sent them, the others have staged their rows. -/
structure Engine.Emitted (e : Engine) (p : Ports) (rows : List (List Byte)) : Prop where
  sent : p.output = e.sends rows.flatten
  idx : e.consumer = .indexed → e.staged.idx = rows.flatMap (·.take e.staged.w)
  pix : e.consumer = .planar → e.staged.pix = rows.flatMap (planarRow e.staged.w e.staged.bplNat)

theorem emitted_congr (h : e.Emitted p rows) (hc : e'.consumer = e.consumer) (hs : e'.staged = e.staged)
    (ho : q.output = p.output) : e'.Emitted q rows := by
  refine ⟨?_, by rw [hc, hs]; exact h.idx, by rw [hc, hs]; exact h.pix⟩
  rw [ho, h.sent, Engine.sends, Engine.sends, hc]

theorem writeCopies_staged (h : writeCopies e line = some (e', line')) : e'.staged = e.staged := by
  obtain ⟨_, _, he⟩ := Option.map_eq_some_iff.mp h
  obtain ⟨rfl, rfl⟩ := Prod.mk.inj he
  rfl

theorem startLine_staged (h : startLine cfg e = some (e', line')) : e'.staged = e.staged := by
  obtain ⟨-, rfl, -⟩ | ⟨-, hw⟩ := startLine_cases h
  · rfl
  · exact (writeCopies_staged hw).trans (b := (freshEngine cfg e).staged) rfl

/-- The consumer takes one scanline more. -/
theorem emitLine_emitted (hemit : emitLine e line p = .ok e' q) (hst : e.Staged) (hl : line.length = e.lineLen)
    (h : e.Emitted p rows) : e'.Emitted q (rows ++ [line]) := by
  obtain ⟨-, hout⟩ := (emitLine_post e line p).of_ok hemit
  obtain ⟨hidx, hpix⟩ := emitLine_appends hemit hst
  have hsame := (emitLine_ok hemit).1
  have hc := hsame.consumer
  have hw : e'.staged.w = e.staged.w := congrArg BitVec.toNat hsame.width
  have hb : e'.staged.bplNat = e.staged.bplNat := congrArg BitVec.toNat hsame.bpl
  refine ⟨?_, fun hi => ?_, fun hp => ?_⟩
  · rw [hout, h.sent, ← hl, List.take_length, ← sends_append, List.flatten_append, List.flatten_singleton,
      Engine.sends, Engine.sends, hc]
  · rw [hc] at hi
    rw [hidx hi, h.idx hi, hw, List.flatMap_append, List.flatMap_singleton]
  · rw [hc] at hp
    rw [hpix hp, h.pix hp, hw, hb, List.flatMap_append, List.flatMap_singleton]

/-- On answering ports a scanline of a body that suits its command is emitted. -/
theorem emitLine_of_answering (hsuits : e.Suits s) (hst : e.Staged) (hy : e.y < e.lines)
    (hl : line.length = e.lineLen) (ha : p.Answering) :
    ∃ e' q, emitLine e line p = .ok e' q ∧ q.Answering ∧ q.input = p.input ∧ q.cursor = p.cursor := by
  by_cases hraw : e.consumer = .raw
  · obtain ⟨ds, hds, hemit⟩ := emitLine_raw_of_answering ha hraw hsuits.1 hl
    exact ⟨_, _, hemit, hds, rfl, rfl⟩
  · obtain ⟨e', hemit⟩ := emitLine_of_served (p := p) (ds := p.draws) hsuits hst hy hl
      (by rw [writes_of_not_raw hraw]; rfl)
    exact ⟨_, _, hemit, ha, rfl, rfl⟩

/-! ### The engine against R184's loops -/

/-- What is left of R184's loops where the engine stands: the scanlines from the present one on, and the variables at
the end. -/
def Engine.remaining (cfg : Config) (e : Engine) (line input : List Byte) : List (List Byte) × RefBody :=
  if e.y < e.lines then refRest cfg.lineRunPolicy e.lineLen e.fill (e.lines - e.y - 1) (e.ref line input)
  else ([], e.ref line input)

/-- What is left before a scanline begins. -/
def Engine.remainingLines (cfg : Config) (e : Engine) (line input : List Byte) : List (List Byte) × RefBody :=
  refLines cfg.lineRunPolicy e.lineLen e.fill (e.lines - e.y) (e.ref line input)

theorem remaining_startLine (h : startLine cfg e = some (e', line')) (hy : e.y < e.lines) (line input : List Byte) :
    e'.remaining cfg line' input = e.remainingLines cfg line input := by
  have hsame := startLine_sameBody h
  rw [Engine.remaining, Engine.remainingLines, startLine_y h, hsame.lines, hsame.lineLen, hsame.fill, if_pos hy,
    show e.lines - e.y = e.lines - e.y - 1 + 1 by omega, refLines_succ]
  exact (refRest_congr _ (startLine_ref h line input)).symm

/-- A scanline that is full or cut by a stop is the next one, and the lines after it are left. -/
theorem remaining_of_lineEnd (hy : e.y < e.lines) (hover : ¬ (e.x < e.lineLen ∧ e.stopped = false))
    (line input : List Byte) : e.remaining cfg line input =
      (line :: (e.nextLine.remainingLines cfg line input).1, (e.nextLine.remainingLines cfg line input).2) := by
  rw [Engine.remaining, if_pos hy, refRest, finishLine_of_over (r := e.ref line input) hover, Nat.sub_sub]
  rfl

theorem nextLine_sameBody (e : Engine) : e.SameBody e.nextLine := ⟨rfl, rfl, rfl, rfl, rfl, rfl, rfl⟩

/-- A new scanline can always be begun inside LINE. -/
theorem startLine_exists (cfg : Config) (hb : e.lineLen ≤ lineBound) : ∃ b, startLine cfg e = some b := by
  obtain ⟨e', line', hw⟩ := writeCopies_exists (e := freshEngine cfg e) (line := List.replicate e.lineLen e.fill) hb
    (Nat.zero_le _) List.length_replicate
  by_cases hs : e.stopped = true
  · exact ⟨_, if_pos hs⟩
  · exact ⟨_, (if_neg hs).trans hw⟩

/-- A body on answering ports stands where R184's loops are in `all`, the scanlines of the body and the variables at
its end: the scanlines before the present one are emitted, and the rest is left. `total` counts the input's bytes. -/
structure Engine.Traces (cfg : Config) (all : List (List Byte) × RefBody) (total : Nat) (e : Engine)
    (line : List Byte) (p : Ports) : Prop where
  answering : p.Answering
  count : p.cursor + p.input.length = total
  emitted : e.Emitted p (all.1.take e.y)
  rest : (all.1.drop e.y, all.2) = e.remaining cfg line p.input

/-- The same where scanline `e.y` is not begun yet. -/
structure Engine.BetweenLines (cfg : Config) (all : List (List Byte) × RefBody) (total : Nat) (e : Engine)
    (line : List Byte) (p : Ports) : Prop where
  answering : p.Answering
  count : p.cursor + p.input.length = total
  emitted : e.Emitted p (all.1.take e.y)
  rest : (all.1.drop e.y, all.2) = e.remainingLines cfg line p.input

theorem traces_of_over (h : e.BetweenLines cfg all total line p) (hover : ¬ e.y < e.lines) :
    e.Traces cfg all total line p := by
  refine ⟨h.answering, h.count, h.emitted, ?_⟩
  rw [h.rest, Engine.remaining, Engine.remainingLines, if_neg hover, Nat.sub_eq_zero_of_le (Nat.not_lt.mp hover)]
  rfl

theorem traces_of_startLine (h : e.BetweenLines cfg all total line p) (hy : e.y < e.lines)
    (hstart : startLine cfg e = some (e', line')) : e'.Traces cfg all total line' p := by
  have hy' := startLine_y hstart
  refine ⟨h.answering, h.count, ?_, ?_⟩
  · rw [hy']
    exact emitted_congr h.emitted (startLine_sameBody hstart).consumer (startLine_staged hstart) rfl
  · rw [hy', remaining_startLine hstart hy line, h.rest]

/-- At the end of a scanline it is emitted, as the next of R184's scanlines. -/
theorem emitLine_betweenLines (hsuits : e.Suits s) (hfits : e.Fits line)
    (hover : ¬ (e.x < e.lineLen ∧ e.stopped = false)) (h : e.Traces cfg all total line p) :
    ∃ e₁ q, emitLine e line p = .ok e₁ q ∧ e.SameBody e₁.nextLine ∧ e₁.nextLine.y = e.y + 1 ∧ e₁.nextLine.Staged ∧
      e₁.nextLine.BetweenLines cfg all total line q := by
  have hy := hfits.y_lt
  obtain ⟨e₁, q, hemit, hq, hin, hcursor⟩ :=
    emitLine_of_answering hsuits hfits.staged hy hfits.line_length h.answering
  obtain ⟨hsame, heq, hstaged⟩ := emitLine_ok hemit
  have hy₁ : e₁.nextLine.y = e.y + 1 := by rw [heq]; rfl
  have hst₁ : e₁.nextLine.Staged := by
    have := hstaged hfits.staged
    rwa [show e.y = e₁.y by rw [heq]] at this
  have hrest := h.rest
  rw [remaining_of_lineEnd hy hover] at hrest
  obtain ⟨hlines, hlast⟩ := Prod.mk.inj hrest
  have htake : all.1.take (e.y + 1) = all.1.take e.y ++ [line] := by
    rw [List.take_add_one, ← List.head?_drop, hlines]
    rfl
  refine ⟨e₁, q, hemit, hsame.trans (nextLine_sameBody e₁), hy₁, hst₁, hq, by rw [hcursor, hin, h.count], ?_, ?_⟩
  · rw [hy₁, htake]
    exact emitted_congr (emitLine_emitted hemit hfits.staged hfits.line_length h.emitted) rfl rfl rfl
  · rw [hy₁, ← List.tail_drop, hlines, hlast, hin, heq]
    rfl

/-- The engine goes on along R184's loops to a code or to its end. -/
theorem settle_traces {n : Nat} (hn : n = e.lines - e.y) (hsuits : e.Suits s) (hfits : e.Fits line)
    (h : e.Traces cfg all total line p) :
    ∃ b q, settle cfg n e line p = .ok b q ∧ b.1.Traces cfg all total b.2 q := by
  induction n generalizing e line p with
  | zero => have := hfits.y_lt; omega
  | succ n ih =>
    by_cases hover : e.x < e.lineLen ∧ e.stopped = false
    · exact ⟨(e, line), p, by rw [settle, if_pos hover], h⟩
    · have hy := hfits.y_lt
      obtain ⟨e₁, q, hemit, hsame, hy₁, hst₁, hbetween⟩ := emitLine_betweenLines hsuits hfits hover h
      have hlines := hsame.lines
      have hsettle : settle cfg (n + 1) e line p = if n = 0 then .ok (e₁.nextLine, line) q
          else (inRange (startLine cfg e₁.nextLine) q).andThen fun r p => settle cfg n r.1 r.2 p := by
        rw [settle, if_neg hover, hemit, andThen_ok]
        rfl
      rw [hsettle]
      by_cases hn0 : n = 0
      · have hend := traces_of_over hbetween (by omega)
        exact ⟨(e₁.nextLine, line), q, if_pos hn0, hend⟩
      · obtain ⟨⟨e₂, line₂⟩, hstart⟩ := startLine_exists cfg (e := e₁.nextLine) (hsame.lineLen ▸ hsuits.1)
        have hsame₂ := hsame.trans (startLine_sameBody hstart)
        have hy₂ := startLine_y hstart
        rw [if_neg hn0, hstart, inRange_some, andThen_ok]
        exact ih (e := e₂) (line := line₂) (by rw [hsame₂.lines]; omega) (suits_of_sameBody hsame₂ hsuits)
          (startLine_fits hstart (by omega) hst₁) (traces_of_startLine hbetween (by omega) hstart)

/-- One code is a pass of R184's loop, or the stop that ends it (R183 to R186). -/
theorem codeReply_traces (hsuits : e.Suits s) (hy : e.y < e.lines) (hset : e.Settled line)
    (h : e.Traces cfg all total line p) :
    ∃ b q, codeReply cfg e line p = .ok b q ∧ b.1.Traces cfg all total b.2 q := by
  obtain ⟨hx, hrem, hstop, hl⟩ := hset.atCode hy
  obtain ⟨c, q, hfetch, hq⟩ := fetchCode_takes h.answering
  obtain ⟨-, hcode⟩ := (fetchCode_post p).of_ok hfetch
  have hcount := hq.count.trans h.count
  have hrest := h.rest
  rw [Engine.remaining, if_pos hy] at hrest
  rw [codeReply, hfetch, andThen_ok]
  cases c with
  | none =>
    obtain ⟨hin, why, hcode⟩ := hcode
    refine settle_traces (e := { e with stopped := true }) rfl hsuits
      (codeDone_fits (.inl ⟨rfl, rfl⟩) hy (hset.atCode hy) hset.staged)
      ⟨hq.answering, hcount, emitted_congr h.emitted rfl rfl hq.output, ?_⟩
    rw [hrest, refRest_congr _ (stop_ref hcode hx hrem hstop line), Engine.remaining, if_pos hy, hin]
  | some i =>
    obtain ⟨e₁, line₁, hwrite⟩ := writeCopies_exists (e := e.load i) hsuits.1 hx.le hl
    have hdone : CodeDone e line e₁ line₁ := .inr ⟨_, _, hwrite⟩
    have hsame := codeDone_sameBody hdone
    have hy₁ : e₁.y = e.y := (writeCopies_y hwrite).trans (b := (e.load i).y) rfl
    have href := (load_ref hcode hx hrem hstop line).trans (writeCopies_ref hwrite hstop hx.le hl q.input)
    simp only [hwrite, inRange_some, andThen_ok]
    refine settle_traces rfl (suits_of_sameBody hsame hsuits)
      (codeDone_fits hdone hy (hset.atCode hy) hset.staged) ⟨hq.answering, hcount, ?_, ?_⟩
    · rw [hy₁]
      exact emitted_congr h.emitted hsame.consumer
        ((writeCopies_staged hwrite).trans (b := (e.load i).staged) rfl) hq.output
    · rw [hy₁, hrest, refRest_congr _ href, Engine.remaining, hy₁, hsame.lines, hsame.lineLen, hsame.fill, if_pos hy]

theorem bodyReply_traces (n : Nat) (hsuits : e.Suits s) (hset : e.Settled line) (h : e.Traces cfg all total line p) :
    ∃ b q, bodyReply cfg n e line p = .ok b q ∧ b.1.Traces cfg all total b.2 q := by
  induction n generalizing e line p with
  | zero => exact ⟨_, _, rfl, h⟩
  | succ n ih =>
    by_cases hy : e.y < e.lines
    · obtain ⟨⟨e₁, line₁⟩, q, hcode, h₁⟩ := codeReply_traces hsuits hy hset h
      rw [bodyReply, if_pos hy, hcode, andThen_ok]
      exact ih (suits_of_sameBody (codeReply_sameBody hcode) hsuits) (codeReply_settled hy hset hcode) h₁
    · exact ⟨_, _, bodyReply_of_over _ line p hy, h⟩

/-- A body is entered at the first of R184's scanlines; with none it is over. -/
theorem enterBody_traces (hsuits : e.Suits s) (hst : e.Staged) (hy : e.y = 0) (ha : p.Answering)
    (hout : p.output = []) :
    ∃ b q, enterBody cfg e p = .ok b q ∧
      b.1.Traces cfg (e.remainingLines cfg [] p.input) (p.cursor + p.input.length) b.2 q := by
  have hemitted : e.Emitted p [] := by
    obtain ⟨hidx, hpix⟩ := hst
    rw [hy, Nat.zero_mul] at hidx hpix
    refine ⟨?_, fun hc => List.eq_nil_of_length_eq_zero (hidx hc), fun hc => List.eq_nil_of_length_eq_zero (hpix hc)⟩
    rw [hout, Engine.sends]
    split <;> rfl
  have hbetween : e.BetweenLines cfg (e.remainingLines cfg [] p.input) (p.cursor + p.input.length) [] p :=
    ⟨ha, rfl, by rw [hy]; exact hemitted, by rw [hy]; rfl⟩
  by_cases hlines : e.lines = 0
  · have hend := traces_of_over hbetween (by omega)
    exact ⟨(e, []), p, if_pos hlines, hend⟩
  · obtain ⟨⟨e₁, line₁⟩, hstart⟩ := startLine_exists cfg hsuits.1
    have hsame := startLine_sameBody hstart
    have hy₁ := startLine_y hstart
    have hentered : enterBody cfg e p = settle cfg e.lines e₁ line₁ p := by
      rw [enterBody, if_neg hlines, hstart, inRange_some, andThen_ok]
    rw [hentered]
    exact settle_traces (by rw [hsame.lines]; omega) (suits_of_sameBody hsame hsuits)
      (startLine_fits hstart (by omega) hst) (traces_of_startLine hbetween (by omega) hstart)

/-- R184's loops from their beginning are what an engine at its entry has left. -/
theorem refDecodeBody_eq (hy : e.y = 0) {input : List Byte} (hentry : e.ref [] input = ⟨[], 0, 0, 0#8, false, input⟩) :
    refDecodeBody cfg.lineRunPolicy e.lineLen e.lines e.fill input = ((e.remainingLines cfg [] input).1,
      (e.remainingLines cfg [] input).2.stopped, (e.remainingLines cfg [] input).2.input) := by
  rw [Engine.remainingLines, hy, hentry]
  rfl

/-- DecodeBody on answering ports is R184's loops: its scanlines are emitted, it stops where they stop, and leaves the
bytes they leave. -/
theorem runBody_of_answering {body : List (List Byte) × Bool × List Byte} (hsuits : e.Suits s) (hst : e.Staged)
    (hy : e.y = 0) (hentry : e.ref [] p.input = ⟨[], 0, 0, 0#8, false, p.input⟩) (ha : p.Answering)
    (hout : p.output = [])
    (hbody : body = refDecodeBody cfg.lineRunPolicy e.lineLen e.lines e.fill p.input) :
    ∃ e' line q, runBody cfg e p = .ok (e', line) q ∧ e'.Emitted q body.1 ∧ e'.stopped = body.2.1 ∧
      q.Answering ∧ q.input = body.2.2 ∧ q.cursor + q.input.length = p.cursor + p.input.length := by
  rw [refDecodeBody_eq hy hentry] at hbody
  subst hbody
  obtain ⟨⟨e₁, line₁⟩, q₁, henter, h₁⟩ := enterBody_traces (cfg := cfg) hsuits hst hy ha hout
  obtain ⟨⟨e', line⟩, q, hcodes, h'⟩ := bodyReply_traces (q₁.input.length + 1)
    (suits_of_sameBody (enterBody_sameBody henter) hsuits) (enterBody_settled henter hy hst) h₁
  have hrun : runBody cfg e p = .ok (e', line) q := by rw [runBody, henter, andThen_ok, hcodes]
  have hrest := h'.rest
  rw [Engine.remaining, if_neg (runBody_ends hrun).1] at hrest
  obtain ⟨hlines, hlast⟩ := Prod.mk.inj hrest
  have hemitted := h'.emitted
  rw [List.take_of_length_le (List.drop_eq_nil_iff.mp hlines)] at hemitted
  exact ⟨e', line, q, hrun, hemitted, by rw [hlast]; rfl, h'.answering, by rw [hlast]; rfl, h'.count⟩

end Traces

/-! ### RLE_DECODE (spec/45_commands.md R362) -/

section Command
variable {s : State}

theorem rawEngine_suits (h2 : s.arg0.toNat ≤ 3 * 65535) : (rawEngine s).Suits s := by
  simpa [Engine.Suits, rawEngine, lineBound] using h2

/-- RLE_DECODE sends the scanlines of R184's loops. -/
theorem exec_rleDecode_of_answering {body : List (List Byte) × Bool × List Byte} (hready : s.Ready)
    (ha : s.PortsAnswer) (h1 : 1 ≤ s.arg0.toNat) (h2 : s.arg0.toNat ≤ 3 * 65535)
    (hbody : body = refDecodeBody s.cfg.lineRunPolicy s.arg0.toNat s.arg1.toNat s.arg2 s.ports.input) :
    ∃ t, exec .rleDecode s = .next t ∧
      Ended t Status.success (s.ports.input.length - body.2.2.length) body.1.flatten ∧ KeepsAll s t := by
  obtain ⟨u, hkeeps, -, hexec⟩ := execRleDecode_body hready h1 h2
  obtain ⟨e, line, q, hrun, hemitted, -, -, hin, hcount⟩ := runBody_of_answering (p := startPorts s.ports)
    (rawEngine_suits h2) (staged_of_raw rfl) rfl rfl ha rfl hbody
  obtain ⟨hover, hsame⟩ := runBody_ends hrun
  have hraw : e.consumer = .raw := hsame.consumer
  rw [hrun, continueBody_of_raw_end hover hraw] at hexec
  have hsent := hemitted.sent
  rw [sends_of_raw hraw] at hsent
  rw [hin, startPorts_cursor, startPorts_input] at hcount
  exact ended_of_success hkeeps hexec (by omega) hsent

end Command

end Sys2Proof.Machine

namespace Sys2Proof.Proofs

open Sys2Proof Sys2Proof.Machine Host

/-- Settles O27: the raw body follows R184's loops and sends each scanline. -/
theorem rleDecodeOutputsScanlines : Obligations.RleDecodeOutputsScanlines := by
  unfold Obligations.RleDecodeOutputsScanlines
  exact fun s hready ha h1 h2 body hbody => exec_rleDecode_of_answering hready ha h1 h2 hbody

end Sys2Proof.Proofs
end

section
/-! PROOFS. DECODE of a stream with a body (spec/45_commands.md R354): the Palette Resolver on any stream
(spec/42_palette_pixels.md R221 to R225), and the Images that the two kinds of body commit. -/

namespace Sys2Proof.Machine

open Host

/-! ### The Palette Resolver (R221 to R225) -/

section Palette
variable {p : Ports}

/-- The scan for the marker, with more passes than there are bytes (R221). -/
theorem scanLoop_of_answering {n : Nat} (ha : p.Answering) (hn : p.input.length < n) :
    ∃ q, scanLoop n p = .ok (refScan p.input).1 q ∧ p.TakenTo (refScan p.input).2 q := by
  induction n generalizing p with
  | zero => omega
  | succ n ih =>
    obtain ⟨q, hread, hq⟩ := readByte_of_answering ha
    rw [scanLoop, hread, andThen_ok]
    cases hin : p.input with
    | nil =>
      rw [hin] at hq
      exact ⟨q, rfl, hq⟩
    | cons b rest =>
      rw [hin, List.tail_cons] at hq
      have hless : q.input.length < n := by rw [hq.input]; rw [hin, List.length_cons] at hn; omega
      simp only [List.head?_cons, refScan]
      split_ifs
      · obtain ⟨q', hscan, hq'⟩ := ih hq.answering hless
        rw [hq.input] at hscan hq'
        exact ⟨q', hscan, takenTo_trans hq hq'⟩
      · exact ⟨q, rfl, hq⟩
      · exact ⟨q, rfl, hq⟩

/-- A table read byte by byte, where a byte that the stream lacks reads 0xFF (R74, R223). -/
theorem readBytesOr_of_answering (n : Nat) (ha : p.Answering) :
    ∃ q, readBytesOr n p = .ok ((p.input ++ List.replicate n 0xFF#8).take n) q ∧ p.TakenTo (p.input.drop n) q := by
  induction n generalizing p with
  | zero => exact ⟨p, rfl, ha, rfl, rfl, rfl⟩
  | succ n ih =>
    obtain ⟨q, hread, hq⟩ := readByte_of_answering ha
    obtain ⟨q', hrest, hq'⟩ := ih hq.answering
    rw [hq.input] at hrest hq'
    refine ⟨q', ?_, ?_⟩
    · rw [readBytesOr, hread, andThen_ok, hrest, andThen_ok]
      cases p.input with
      | nil => rfl
      | cons b rest =>
        rw [List.cons_append, List.take_succ_cons, List.replicate_succ', ← List.append_assoc,
          List.take_append_of_le_length (l₁ := rest ++ _) (by simp)]
        rfl
    · rw [← List.drop_one, List.drop_drop, Nat.add_comm] at hq'
      exact takenTo_trans hq hq'

theorem resolvePalette_of_answering (fb : List Rgb) (ha : p.Answering) :
    ∃ q, resolvePalette fb p = .ok ((refPalette fb p.input).1, (refPalette fb p.input).2.1) q ∧
      p.TakenTo (refPalette fb p.input).2.2 q := by
  obtain ⟨q, hscan, hq⟩ := scanLoop_of_answering ha (Nat.lt_succ_self _)
  rw [resolvePalette, scanForMarker, hscan, andThen_ok, refPalette]
  by_cases hfound : (refScan p.input).1 = true
  · obtain ⟨q', hread, hq'⟩ := readBytesOr_of_answering 768 hq.answering
    rw [hq.input] at hread hq'
    simp only [hfound, if_true]
    rw [hread, andThen_ok]
    exact ⟨q', rfl, takenTo_trans hq hq'⟩
  · simp only [hfound]
    exact ⟨q, rfl, hq⟩

end Palette

/-! ### DECODE's body (R354) -/

section Commands
variable {s : State} {h : Header} {body : List (List Byte) × Bool × List Byte}

/-- DECODE of an accepted header with its tail there: the header is latched, and the body runs on the bytes after it. -/
theorem exec_decode_of_accepted (hready : s.Ready) (ha : s.PortsAnswer) (hlen : 128 ≤ s.ports.input.length)
    (hh : h = streamHeader s) (hacc : h.Accepted s.cfg) :
    ∃ u p, KeepsOperands s u ∧ u.hdr = h ∧ p.Answering ∧ p.input = s.ports.input.drop 128 ∧ p.cursor = 128 ∧
      p.output = [] ∧ exec .decode s = continueBody u (runBody s.cfg (decodeEngine s.freeIx h.info) p) := by
  have hread := headerRead_of_answering (p := (prologue s).ports) ha (show 68 ≤ s.ports.input.length by omega) hh.symm
    hacc
  have hskip := skip_of_enough (n := 60) (p := advance 68 (prologue s).ports.answered) (answered_answering ha)
    (by simp; omega)
  obtain ⟨line, ph, p', hwhole⟩ := wholeCommand_beginDecode_body (s := prologue s) hread hskip
  obtain ⟨-, -, hoperands⟩ := keepsAll_prologue s
  have hkeeps : KeepsOperands s ((prologue s).withScratch h line ph p') := hoperands
  exact ⟨_, advance 60 (advance 68 (prologue s).ports.answered).answered, hkeeps, rfl,
    answered_answering (answered_answering ha), by simp, rfl, rfl,
    (exec_decode_of_ready hready).trans hwhole⟩

/-- What DECODE's engine and ports are at the end of its body: the geometry is the header's, and `body` is R184's
scanlines, TRUNCATED, and the bytes left. -/
structure Engine.HasDecoded (h : Header) (body : List (List Byte) × Bool × List Byte) (e : Engine) (q : Ports) : Prop
    where
  ended : ¬ e.y < e.lines
  width : (e.staged.w : Int) = h.width
  height : (e.staged.h : Int) = h.height
  bpl : e.staged.bpl = h.bpl
  emitted : e.Emitted q body.1
  stopped : e.stopped = body.2.1
  answering : q.Answering
  left : q.input = body.2.2

/-- DECODE's body on answering ports is R184's loops (R185 to R192). -/
theorem exec_decode_of_loops (hready : s.Ready) (ha : s.PortsAnswer) (hlen : 128 ≤ s.ports.input.length)
    (hh : h = streamHeader s) (hacc : h.Accepted s.cfg)
    (hbody : body = refDecodeBody s.cfg.lineRunPolicy (h.planes.toNat * h.bpl.toNat) h.height.toNat
      (decodeEngine s.freeIx h.info).fill (s.ports.input.drop 128)) :
    ∃ u e line q, exec .decode s = continueBody u (.ok (e, line) q) ∧ KeepsOperands s u ∧ u.hdr = h ∧
      e.consumer = (decodeEngine s.freeIx h.info).consumer ∧ e.HasDecoded h body q ∧
      q.cursor + q.input.length = s.ports.input.length := by
  obtain ⟨u, p, hkeeps, hhdr, hp, hin, hcursor, hout, hexec⟩ := exec_decode_of_accepted hready ha hlen hh hacc
  have hgeo := geometryOk_of_accepted hacc
  obtain ⟨hw, hheight, -⟩ := stagedImage_geometry (bpl := h.bpl) hgeo
  obtain ⟨-, hplanes, -⟩ := id hacc
  have hsuits : (decodeEngine s.freeIx h.info).Suits { s with hdr := h } := decodeEngine_suits rfl hgeo hplanes
  rw [← hin] at hbody
  obtain ⟨e, line, q, hrun, hemitted, hstopped, hq, hleft, hcount⟩ := runBody_of_answering hsuits
    (by simp [Engine.Staged, decodeEngine, stagedImage]) rfl rfl hp hout hbody
  obtain ⟨hover, hsame⟩ := runBody_ends hrun
  have hw' : e.staged.w = h.info.w := (congrArg BitVec.toNat hsame.width).trans hw
  have hh' : e.staged.h = h.info.h := (congrArg BitVec.toNat hsame.height).trans hheight
  refine ⟨u, e, line, q, hexec.trans (by rw [hrun]), hkeeps, hhdr, hsame.consumer,
    ⟨hover, ?_, ?_, hsame.bpl, hemitted, hstopped, hq, hleft⟩, ?_⟩
  · rw [hw', Header.info_w hacc]
  · rw [hh', Header.info_h hacc]
  · rw [hcount, hcursor, hin, List.length_drop]
    omega

theorem keepsOperands_decoded {u : State} {st : Status} {q : Ports} {w height : Nat} {r : Res2} {img : Image}
    (hk : KeepsOperands s u) : KeepsOperands s (endCommand st q (setResults w height r (commitImage img u))) := by
  simpa [KeepsOperands] using hk

/-- IMG_WIDTH and IMG_HEIGHT fit RES0 and RES1. -/
theorem toNat_ofNat_of_size (v : BitVec 17) : (BitVec.ofNat 32 v.toNat).toNat = v.toNat := by
  have := v.isLt
  rw [BitVec.toNat_ofNat]
  omega

end Commands

end Sys2Proof.Machine

namespace Sys2Proof.Proofs

open Sys2Proof Sys2Proof.Machine Host

/-- Settles O19: the body stages the indices of R184's scanlines, and the palette is resolved from what they leave. -/
theorem decodeIndexedImage : Obligations.DecodeIndexedImage := by
  unfold Obligations.DecodeIndexedImage
  intro s hready ha hlen hacc hplanes h body pal hh hbody hpal
  rw [← hh] at hacc hplanes
  obtain ⟨u, e, line, q, hexec, hkeeps, hhdr, hc, he, hcount⟩ := exec_decode_of_loops hready ha hlen hh hacc
    (body := body) (by rw [hbody]; simp [decodeEngine, Header.info, hplanes])
  have hc : e.consumer = .indexed := hc.trans (if_pos hplanes)
  obtain ⟨q', hresolve, hq'⟩ := resolvePalette_of_answering u.hdr.fb he.answering
  rw [hhdr, he.left, ← hpal] at hresolve hq'
  rw [continueBody_of_indexed_end he.ended hc (by rw [hhdr]; exact hresolve)] at hexec
  have hused := hq'.count
  rw [hq'.input, hcount] at hused
  have hout : q'.output = [] := by rw [hq'.output, he.emitted.sent, sends_of_not_raw (by simp [hc])]
  refine ⟨_, hexec, ended_endCommand (by omega) hout, ?_⟩
  rw [endCommand_image, setResults_image, commitImage_image_of_indexed _ _ rfl]
  refine ⟨rfl, he.width, he.height, he.bpl, rfl, he.emitted.idx hc, rfl, toNat_ofNat_of_size _, toNat_ofNat_of_size _,
    ?_, keepsOperands_decoded hkeeps⟩
  rw [endCommand_res2, setResults_res2, bodyResults, hhdr, hplanes, he.stopped]

/-- Settles O20: the body stages the pixels of R184's scanlines. -/
theorem decodePlanarImage : Obligations.DecodePlanarImage := by
  unfold Obligations.DecodePlanarImage
  intro s hready ha hlen hacc hplanes h body hh hbody
  rw [← hh] at hacc hplanes
  have hne : h.planes ≠ 1#8 := by rw [hplanes]; decide
  obtain ⟨u, e, line, q, hexec, hkeeps, hhdr, hc, he, hcount⟩ := exec_decode_of_loops hready ha hlen hh hacc
    (body := body) (by rw [hbody]; simp [decodeEngine, Header.info, hplanes])
  have hc : e.consumer = .planar := hc.trans (if_neg hne)
  rw [continueBody_of_planar_end he.ended hc] at hexec
  rw [he.left] at hcount
  have hout : q.output = [] := by rw [he.emitted.sent, sends_of_not_raw (by simp [hc])]
  refine ⟨_, hexec, ended_endCommand (by omega) hout, ?_⟩
  rw [endCommand_image, setResults_image]
  have hw : (commitImage { e.staged with repr := .truecolor } u).image.w = e.staged.w :=
    congrArg BitVec.toNat (commitImage_image_width _ u)
  have hh : (commitImage { e.staged with repr := .truecolor } u).image.h = e.staged.h :=
    congrArg BitVec.toNat (commitImage_image_height _ u)
  rw [hw, hh]
  refine ⟨commitImage_image_repr _ u, he.width, he.height, ?_, ?_, toNat_ofNat_of_size _, toNat_ofNat_of_size _, ?_,
    keepsOperands_decoded hkeeps⟩
  · rw [commitImage_image_bpl, he.bpl]
  · rw [commitImage_image_pix, he.emitted.pix hc, Image.bplNat, he.bpl]
    rfl
  · rw [endCommand_res2, setResults_res2, bodyResults, hhdr, hplanes, he.stopped]

end Sys2Proof.Proofs
end

section
/-! PROOFS. The STATUS word (spec/10_state.md R37, spec/60_exceptions.md R405): its fields at their places. -/

namespace Sys2Proof.Machine

open Host

/-- The word bit by bit: its fields from the lowest up, and nothing above them. -/
theorem status_toWord_getLsbD (st : Status) (i : Nat) :
    st.toWord.getLsbD i =
      if i < 1 then (bit st.busy).getLsbD i
      else if i - 1 < 1 then (bit st.done).getLsbD (i - 1)
      else if i - 1 - 1 < 1 then (bit st.err).getLsbD (i - 1 - 1)
      else if i - 1 - 1 - 1 < 1 then false
      else if i - 1 - 1 - 1 - 1 < 3 then st.errKind.getLsbD (i - 1 - 1 - 1 - 1)
      else if i - 1 - 1 - 1 - 1 - 3 < 1 then false
      else if i - 1 - 1 - 1 - 1 - 3 - 1 < 8 then st.errDetail.getLsbD (i - 1 - 1 - 1 - 1 - 3 - 1)
      else false := by
  show BitVec.getLsbD (w := 16 + 8 + 1 + 3 + 1 + 1 + 1 + 1) (0#16 ++ st.errDetail ++ 0#1 ++ st.errKind ++ 0#1 ++
    bit st.err ++ bit st.done ++ bit st.busy) i = _
  simp only [BitVec.getLsbD_append, BitVec.getLsbD_zero]

theorem status_toWord_flags (st : Status) :
    st.toWord.getLsbD 0 = st.busy ∧ st.toWord.getLsbD 1 = st.done ∧ st.toWord.getLsbD 2 = st.error.isSome := by
  simp only [status_toWord_getLsbD]
  exact ⟨bit_getLsbD_zero _, bit_getLsbD_zero _, bit_getLsbD_zero _⟩

/-- The single bits that no field has. -/
theorem status_toWord_gaps (st : Status) : st.toWord.getLsbD 3 = false ∧ st.toWord.getLsbD 7 = false := by
  simp only [status_toWord_getLsbD]
  exact ⟨rfl, rfl⟩

theorem status_toWord_errKind (st : Status) : st.toWord.extractLsb' 4 3 = st.errKind := by
  apply BitVec.eq_of_getLsbD_eq
  intro i hi
  rw [BitVec.getLsbD_extractLsb', status_toWord_getLsbD, if_neg (by omega), if_neg (by omega), if_neg (by omega),
    if_neg (by omega), if_pos (by omega), decide_eq_true hi, Bool.true_and]
  congr 1
  omega

theorem status_toWord_errDetail (st : Status) : st.toWord.extractLsb' 8 8 = st.errDetail := by
  apply BitVec.eq_of_getLsbD_eq
  intro i hi
  rw [BitVec.getLsbD_extractLsb', status_toWord_getLsbD, if_neg (by omega), if_neg (by omega), if_neg (by omega),
    if_neg (by omega), if_neg (by omega), if_neg (by omega), if_pos (by omega), decide_eq_true hi, Bool.true_and]
  congr 1
  omega

theorem status_toWord_high (st : Status) : st.toWord.extractLsb' 16 16 = 0#16 := by
  apply BitVec.eq_of_getLsbD_eq
  intro i hi
  rw [BitVec.getLsbD_extractLsb', status_toWord_getLsbD, if_neg (by omega), if_neg (by omega), if_neg (by omega),
    if_neg (by omega), if_neg (by omega), if_neg (by omega), if_neg (by omega), Bool.and_false, BitVec.getLsbD_zero]

end Sys2Proof.Machine

namespace Sys2Proof.Proofs

open Sys2Proof Sys2Proof.Machine Host

/-- Settles O60: STATUS may be read while BUSY too, and its word has each field at its place. -/
theorem statusWordFields : Obligations.StatusWordFields := by
  unfold Obligations.StatusWordFields
  refine ⟨fun s => ⟨s.status.toWord, ?_, ?_⟩, fun e => ?_⟩
  · rw [hostRead_of_access rfl, show regAt 0x08 = .status from rfl, readAt_of_steady rfl]
    rfl
  · obtain ⟨hbusy, hdone, herr⟩ := status_toWord_flags s.status
    obtain ⟨hbit3, hbit7⟩ := status_toWord_gaps s.status
    exact ⟨hbusy, hdone, herr, status_toWord_errKind s.status, status_toWord_errDetail s.status, hbit3, hbit7,
      status_toWord_high s.status⟩
  · cases e <;> decide

end Sys2Proof.Proofs
end

section
/-! PROOFS. How a command ends with an error (spec/60_exceptions.md R406, R410, R411): the errors that each piece of a
command can raise, and the state that an error leaves. -/

namespace Sys2Proof.Machine

open Host

/-! ### The errors of a piece (R406, R411) -/

/-- The error is in the list, and one that is no port failure leaves no output. -/
def Permitted (errs : List CmdError) (e : CmdError) (p : Ports) : Prop :=
  e ∈ errs ∧ (e ≠ .accessIn → e ≠ .accessOut → p.output = [])

/-- No output request was made yet. -/
def Quiet {α : Type} (_ : α) (p : Ports) : Prop := p.output = []

/-- Every error of the piece is permitted; `Q` holds of its result. -/
abbrev Reply.Raises {α : Type} (errs : List CmdError) (r : Reply α) (Q : α → Ports → Prop) : Prop :=
  r.Post Q (Permitted errs) True

section Pieces
variable {α : Type} {errs : List CmdError} {e : CmdError} {p : Ports}

theorem Reply.Post.of_error {r : Reply α} {Q : α → Ports → Prop} {E : CmdError → Ports → Prop} {W : Prop}
    (h : r.Post Q E W) (hr : r = .error e p) : E e p := by
  subst hr; exact h

theorem permitted_of_quiet (he : e ∈ errs) (hp : p.output = []) : Permitted errs e p := ⟨he, fun _ _ => hp⟩

theorem permitted_accessIn (hin : .accessIn ∈ errs) : Permitted errs .accessIn p := ⟨hin, fun h => absurd rfl h⟩

theorem permitted_accessOut (hout : .accessOut ∈ errs) : Permitted errs .accessOut p := ⟨hout, fun _ h => absurd rfl h⟩

theorem raises_require {c : Bool} (he : e ∈ errs) (hp : p.output = []) : (require c e p).Raises errs Quiet := by
  cases c
  · exact permitted_of_quiet he hp
  · exact hp

theorem raises_inRange {access : Option α} : (inRange access p).Raises errs fun _ _ => True := by
  cases access <;> trivial

theorem raises_writeAll (hout : .accessOut ∈ errs) (parts : List (List Byte)) :
    (writeAll parts p).Raises errs fun _ _ => True :=
  (writeAll_post parts p).mono (fun _ _ _ _ => trivial) fun _ _ h => h.1 ▸ permitted_accessOut hout

/-! ### Requests for input -/

/-- A request for input fails with IN_PORT alone, and puts nothing out. -/
theorem raises_answer (hin : .accessIn ∈ errs) {n : Nat} {served : Ports → Reply α}
    (hserved : ∀ q : Ports, q.output = [] → (served q).Raises errs Quiet) (hp : p.output = []) :
    (answer p served (inFailed n)).Raises errs Quiet := by
  unfold answer
  split
  · exact hserved p hp
  · exact hserved _ hp
  · exact permitted_accessIn hin
  · trivial

theorem raises_readExact (hin : .accessIn ∈ errs) (n : Nat) (hp : p.output = []) :
    (readExact n p).Raises errs Quiet :=
  raises_answer hin (fun q hq => by split <;> exact hq) hp

theorem raises_skip (hin : .accessIn ∈ errs) (n : Nat) (hp : p.output = []) : (skip n p).Raises errs Quiet :=
  raises_answer hin (fun q hq => by split <;> exact hq) hp

theorem raises_readByte (hin : .accessIn ∈ errs) : (readByte p).Raises errs fun _ _ => True :=
  (readByte_post p).mono (fun _ _ _ _ => trivial) fun _ _ h => h.1 ▸ permitted_accessIn hin

theorem raises_fetchCode (hin : .accessIn ∈ errs) : (fetchCode p).Raises errs fun _ _ => True :=
  (fetchCode_post p).mono (fun _ _ _ _ => trivial) fun _ _ h => h.1 ▸ permitted_accessIn hin

theorem raises_readBytesOr (hin : .accessIn ∈ errs) (n : Nat) : (readBytesOr n p).Raises errs fun _ _ => True := by
  induction n generalizing p with
  | zero => trivial
  | succ n ih => exact post_andThen (raises_readByte hin) fun _ _ _ _ => post_andThen ih fun _ _ _ _ => trivial

theorem raises_scanLoop (hin : .accessIn ∈ errs) (n : Nat) : (scanLoop n p).Raises errs fun _ _ => True := by
  induction n generalizing p with
  | zero => trivial
  | succ n ih =>
    refine post_andThen (raises_readByte hin) fun c q _ _ => ?_
    cases c with
    | none => trivial
    | some b => dsimp only; split_ifs; exacts [ih, trivial, trivial]

theorem raises_resolvePalette (hin : .accessIn ∈ errs) (fb : List Rgb) :
    (resolvePalette fb p).Raises errs fun _ _ => True := by
  refine post_andThen (raises_scanLoop hin _) fun found q _ _ => ?_
  split
  · exact post_andThen (raises_readBytesOr hin 768) fun _ _ _ _ => trivial
  · trivial

/-! ### Checks -/

theorem raises_requireImage {img : Image} (hno : .noImage ∈ errs) (hp : p.output = []) :
    (requireImage img p).Raises errs Quiet :=
  post_andThen (raises_require hno hp) fun _ _ _ hq => by split; exacts [hq, trivial]

theorem raises_requireIndexed {img : Image} (hno : .noImage ∈ errs) (hwrong : .wrongRepr ∈ errs) (hp : p.output = []) :
    (requireIndexed img p).Raises errs Quiet :=
  post_andThen (raises_require hno hp) fun _ _ _ hq => post_andThen (raises_require hwrong hq) fun _ _ _ hq => by
    split; exacts [hq, trivial]

theorem raises_requireIcon {img : Image} (hp : p.output = []) :
    (requireIcon img p).Raises (errorsOf .writeIco) Quiet :=
  post_andThen (raises_requireImage (by decide) hp) fun _ _ _ hq => raises_require (by decide) hq

theorem raises_readData (hin : .accessIn ∈ errs) (hshort : .shortData ∈ errs) (n : Nat) (hp : p.output = []) :
    (readData n p).Raises errs Quiet :=
  post_andThen (raises_readExact hin n hp) fun r _ _ hq => by
    cases r with
    | none => exact permitted_of_quiet hshort hq
    | some d => exact hq

theorem raises_checkLoad {cfg : Config} {g : LoadGeometry} (hp : p.output = []) :
    (checkLoad cfg g p).Raises (errorsOf .loadIndexed) Quiet :=
  post_andThen (raises_require (by decide) hp) fun _ _ _ hq => post_andThen (raises_require (by decide) hq)
    fun _ _ _ hq => raises_require (by decide) hq

/-- DECODE and PROBE share the Header Reader and its errors. -/
theorem raises_headerRead {cfg : Config} (hp : p.output = []) :
    (headerRead cfg p).Raises (errorsOf .probe) Quiet := by
  refine post_andThen (raises_readExact (by decide) 68 hp) fun r q _ hq => ?_
  cases r with
  | none => exact permitted_of_quiet (by decide) hq
  | some b =>
    exact post_andThen (raises_require (by decide) hq) fun _ _ _ hq =>
      post_andThen (raises_require (by decide) hq) fun _ _ _ hq =>
      post_andThen (raises_require (by decide) hq) fun _ _ _ hq =>
      post_andThen (raises_require (by decide) hq) fun _ _ _ hq =>
      post_andThen (raises_require (by decide) hq) fun _ _ _ hq =>
      post_andThen (raises_require (by decide) hq) fun _ _ _ hq => hq

end Pieces

/-! ### The errors of a body (spec/41_rle_decoder.md R184, R191, R192, spec/45_commands.md R362) -/

/-- Where the engine's consumer makes output requests (emitRaw alone does), OUT_PORT is among the errors. -/
def Engine.MayRaise (errs : List CmdError) (e : Engine) : Prop := e.consumer = .raw → .accessOut ∈ errs

section Body
variable {errs : List CmdError} {cfg : Config} {e e' : Engine} {line : List Byte} {p : Ports}

theorem mayRaise_of_sameBody (hsame : e.SameBody e') (h : e.MayRaise errs) : e'.MayRaise errs :=
  fun hraw => h (hsame.consumer.symm.trans hraw)

theorem raises_emitLine (h : e.MayRaise errs) :
    (emitLine e line p).Raises errs fun e' _ => e'.MayRaise errs := by
  unfold emitLine
  split
  · exact post_andThen raises_inRange fun _ _ _ _ => post_andThen raises_inRange fun _ _ _ _ => h
  · exact post_andThen raises_inRange fun _ _ _ _ => post_andThen raises_inRange fun _ _ _ _ => h
  · next hraw =>
    exact post_andThen raises_inRange fun _ _ _ _ => post_andThen (raises_writeAll (h hraw) _) fun _ _ _ _ => h

theorem raises_settle (n : Nat) (h : e.MayRaise errs) :
    (settle cfg n e line p).Raises errs fun b _ => b.1.MayRaise errs := by
  induction n generalizing e line p with
  | zero => exact h
  | succ n ih =>
    unfold settle
    split
    · exact h
    · refine post_andThen (raises_emitLine h) fun e₁ q _ h₁ => ?_
      dsimp only
      split
      · exact h₁
      · refine post_andThen post_inRange fun b q' _ ⟨hstart, _⟩ => ih ?_
        exact mayRaise_of_sameBody (startLine_sameBody (e' := b.1) (line := b.2) hstart) h₁

theorem raises_enterBody (h : e.MayRaise errs) :
    (enterBody cfg e p).Raises errs fun b _ => b.1.MayRaise errs := by
  unfold enterBody
  split
  · exact h
  · refine post_andThen post_inRange fun b q _ ⟨hstart, _⟩ => raises_settle _ ?_
    exact mayRaise_of_sameBody (startLine_sameBody (e' := b.1) (line := b.2) hstart) h

theorem raises_codeReply (hin : .accessIn ∈ errs) (h : e.MayRaise errs) :
    (codeReply cfg e line p).Raises errs fun b _ => b.1.MayRaise errs := by
  refine post_andThen (raises_fetchCode hin) fun c q _ _ => ?_
  cases c with
  | none => exact raises_settle _ h
  | some i =>
    refine post_andThen post_inRange fun b q' _ ⟨hwrite, _⟩ => raises_settle _ ?_
    exact mayRaise_of_sameBody (e := e.load i) (writeCopies_sameBody (e' := b.1) (line' := b.2) hwrite) h

end Body

/-! ### The state that a command leaves (R410) -/

/-- The command has raised no error so far, or has ended with a permitted one by error entry. -/
def RaisesOnly (errs : List CmdError) (t : State) : Prop :=
  (t.status.error = none ∧ ∀ e, t.phase = .body e → e.MayRaise errs) ∨
  ∃ e p u, Permitted errs e p ∧ t = endCommand (Status.failure e) p u

section Commands
variable {α : Type} {errs : List CmdError} {s : State}

theorem raisesOnly_endCommand {st : Status} (p : Ports) (hst : st.error = none) : RaisesOnly errs (endCommand st p s) :=
  .inl ⟨hst, fun _ => nofun⟩

theorem raisesOnly_stall (p : Ports) (hs : s.status.error = none) : RaisesOnly errs (stallCommand p s) :=
  .inl ⟨hs, fun _ => nofun⟩

theorem raisesOnly_error {e : CmdError} {p : Ports} (h : Permitted errs e p) :
    RaisesOnly errs (endCommand (Status.failure e) p s) :=
  .inr ⟨e, p, s, h, rfl⟩

theorem yields_conclude_raisesOnly {r : Reply α} {effect : α → State → State} {Q : α → Ports → Prop}
    (hs : s.status.error = none) (hr : r.Raises errs Q) : Yields (conclude s r effect) (RaisesOnly errs) := by
  cases r with
  | ok a p => exact yields_next.mpr (raisesOnly_endCommand p rfl)
  | error e p => exact yields_next.mpr (raisesOnly_error hr)
  | stall p => exact yields_next.mpr (raisesOnly_stall p hs)
  | refuse why => exact yields_refused why

theorem yields_emitImage_raisesOnly {check : Image → Ports → Reply Unit} {parts : Image → List (List Byte)}
    (hs : s.status.error = none) (hout : .accessOut ∈ errs) (hcheck : (check s.image s.ports).Raises errs Quiet) :
    Yields (emitImage s check parts) (RaisesOnly errs) :=
  yields_conclude_raisesOnly hs (post_andThen hcheck fun _ _ _ _ => raises_writeAll hout _)

/-- The end of a body reads only DECODE's palette. -/
theorem yields_finishBody_raisesOnly (hin : .accessIn ∈ errs) (hs : s.status.error = none) (e : Engine) (p : Ports) :
    Yields (finishBody s e p) (RaisesOnly errs) := by
  unfold finishBody
  split
  · exact yields_next.mpr (raisesOnly_endCommand p rfl)
  · exact yields_next.mpr (raisesOnly_endCommand p rfl)
  · exact yields_conclude_raisesOnly hs (raises_resolvePalette hin _)

theorem yields_continueBody_raisesOnly {r : Reply (Engine × List Byte)} (hin : .accessIn ∈ errs)
    (hs : s.status.error = none) (hr : r.Raises errs fun b _ => b.1.MayRaise errs) :
    Yields (continueBody s r) (RaisesOnly errs) := by
  cases r with
  | ok b p =>
    obtain ⟨e, line⟩ := b
    by_cases hy : e.y < e.lines
    · rw [continueBody, if_pos hy]
      refine yields_next.mpr (.inl ⟨hs, fun e' he => ?_⟩)
      obtain rfl := Phase.body.inj he
      exact hr
    · rw [continueBody, if_neg hy]
      exact yields_finishBody_raisesOnly hin hs e p
  | error e p => exact yields_next.mpr (raisesOnly_error hr)
  | stall p => exact yields_next.mpr (raisesOnly_stall p hs)
  | refuse why => exact yields_refused why

theorem yields_codeStep_raisesOnly (hin : .accessIn ∈ errs) (h : RaisesOnly errs s) {e : Engine}
    (he : s.phase = .body e) : Yields (codeStep runCode s) (RaisesOnly errs) := by
  obtain ⟨hs, hbody⟩ | ⟨er, p, u, -, rfl⟩ := h
  · obtain ⟨line, ph, p, hcode⟩ := codeStep_eq_continueBody runsCodes_runCode he
    rw [hcode]
    exact yields_continueBody_raisesOnly hin hs (raises_codeReply hin (hbody e he))
  · simp at he

theorem yields_wholeCommand_raisesOnly {o : Outcome State Fault Refusal} (hin : .accessIn ∈ errs)
    (h : Yields o (RaisesOnly errs)) : Yields (wholeCommand o) (RaisesOnly errs) :=
  yields_wholeCommand (fun _ _ hs he => yields_codeStep_raisesOnly hin hs he) h

/-! ### DECODE and RLE_DECODE (spec/45_commands.md R354, R362) -/

theorem decodeEngine_mayRaise (ix : Draw) (info : HeaderInfo) : (decodeEngine ix info).MayRaise errs := by
  intro hraw
  unfold decodeEngine at hraw
  split_ifs at hraw

theorem yields_decodeTail_raisesOnly {info : HeaderInfo} {p : Ports} (hs : s.status.error = none)
    (hp : p.output = []) : Yields (decodeTail info s p) (RaisesOnly (errorsOf .decode)) := by
  have hskip : (skip 60 p).Raises (errorsOf .decode) Quiet := raises_skip (by decide) 60 hp
  unfold decodeTail
  cases hr : skip 60 p with
  | ok ended q =>
    cases ended with
    | true => exact yields_next.mpr (raisesOnly_endCommand q rfl)
    | false => exact yields_continueBody_raisesOnly (by decide) hs (raises_enterBody (decodeEngine_mayRaise _ info))
  | error e q => exact yields_next.mpr (raisesOnly_error (hskip.of_error hr))
  | stall q => exact yields_next.mpr (raisesOnly_stall q hs)
  | refuse why => exact yields_refused why

theorem yields_beginDecode_raisesOnly (hs : s.status.error = none) (hp : s.ports.output = []) :
    Yields (beginDecode s) (RaisesOnly (errorsOf .decode)) := by
  have hread : (headerRead s.cfg s.ports).Raises (errorsOf .decode) Quiet := raises_headerRead hp
  unfold beginDecode
  cases hr : headerRead s.cfg s.ports with
  | ok info q => exact yields_decodeTail_raisesOnly hs (hread.of_ok hr)
  | error e q => exact yields_next.mpr (raisesOnly_error (hread.of_error hr))
  | stall q => exact yields_next.mpr (raisesOnly_stall q hs)
  | refuse why => exact yields_refused why

theorem yields_beginRleDecode_raisesOnly (hs : s.status.error = none) (hp : s.ports.output = []) :
    Yields (beginRleDecode s) (RaisesOnly (errorsOf .rleDecode)) :=
  yields_continueBody_raisesOnly (by decide) hs (post_andThen (raises_require (by decide) hp) fun _ _ _ _ =>
    raises_enterBody fun _ => by decide)

/-! ### The instructions -/

/-- Each command's row of R406. -/
theorem yields_exec_raisesOnly {i : Instr} (hcode : ¬ isCodeForm i) (s : State) :
    Yields (exec i s) (RaisesOnly (errorsOf i)) := by
  unfold exec
  cases i with
  | lit v => simp [codeBytes, encode] at hcode
  | run n v => simp [codeBytes, encode] at hcode
  | nop | clear => exact yields_runCommand fun _ => yields_next.mpr (raisesOnly_endCommand _ rfl)
  | decode =>
    exact yields_runCommand fun _ => yields_wholeCommand_raisesOnly (by decide) (yields_beginDecode_raisesOnly rfl rfl)
  | rleDecode =>
    exact yields_runCommand fun _ => yields_wholeCommand_raisesOnly (by decide)
      (yields_beginRleDecode_raisesOnly rfl rfl)
  | probe => exact yields_runCommand fun _ => yields_conclude_raisesOnly rfl (raises_headerRead rfl)
  | loadIndexed =>
    refine yields_runCommand fun _ => yields_conclude_raisesOnly (Q := Quiet) rfl ?_
    exact post_andThen (raises_checkLoad rfl) fun _ _ _ hq =>
      post_andThen (raises_readData (by decide) (by decide) _ hq) fun _ _ _ hq =>
      post_andThen (raises_readData (by decide) (by decide) _ hq) fun _ _ _ hq =>
      post_andThen (raises_require (by decide) hq) fun _ _ _ hq => hq
  | loadTruecolor =>
    refine yields_runCommand fun _ => yields_conclude_raisesOnly (Q := Quiet) rfl ?_
    exact post_andThen (raises_checkLoad rfl) fun _ _ _ hq =>
      post_andThen (raises_readData (by decide) (by decide) _ hq) fun _ _ _ hq =>
      post_andThen (raises_require (by decide) hq) fun _ _ _ hq => hq
  | rleEncode =>
    refine yields_runCommand fun _ => yields_conclude_raisesOnly (Q := fun _ _ => True) rfl ?_
    exact post_andThen (raises_require (by decide) rfl) fun _ _ _ hq =>
      post_andThen (raises_readData (by decide) (by decide) _ hq) fun _ _ _ _ => raises_writeAll (by decide) _
  | readIndex | readPalette =>
    exact yields_runCommand fun _ => yields_emitImage_raisesOnly rfl (by decide)
      (raises_requireIndexed (by decide) (by decide) rfl)
  | readPixels | writePcx | writeBmp | writeBmpa =>
    exact yields_runCommand fun _ => yields_emitImage_raisesOnly rfl (by decide) (raises_requireImage (by decide) rfl)
  | writeIco => exact yields_runCommand fun _ => yields_emitImage_raisesOnly rfl (by decide) (raises_requireIcon rfl)

/-- A command that ends with an error ends by error entry, with an error of its row. -/
theorem exec_error {i : Instr} {t : State} {e : CmdError} (hcode : ¬ isCodeForm i) (hexec : exec i s = .next t)
    (herr : t.status.error = some e) : ∃ p u, Permitted (errorsOf i) e p ∧ t = endCommand (Status.failure e) p u := by
  obtain ⟨hnone, -⟩ | ⟨e', p, u, hperm, rfl⟩ := yields_exec_raisesOnly hcode s t hexec
  · simp [hnone] at herr
  · obtain rfl : e' = e := Option.some.inj herr
    exact ⟨p, u, hperm, rfl⟩

end Commands

end Sys2Proof.Machine

namespace Sys2Proof.Proofs

open Sys2Proof Sys2Proof.Machine Host

/-- Settles O45: the error ends the command by error entry, and only a success changes the Image or the results. -/
theorem errorEntryIsPrecise : Obligations.ErrorEntryIsPrecise := by
  unfold Obligations.ErrorEntryIsPrecise
  intro s t i e hcode hexec herr
  obtain ⟨hops, himage, hresults⟩ := yields_exec_effects i s t hexec
  have hnot : t.status ≠ Status.success := fun h => by simp [h] at herr
  obtain ⟨p, u, -, rfl⟩ := exec_error hcode hexec herr
  exact ⟨endCommand_ended _ p u, himage.resolve_right fun h => hnot h.2, hresults.resolve_right fun h => hnot h.2, hops⟩

/-- Settles O46: every piece of a command raises errors of the command's row, and checks come before output. -/
theorem errorsByCommand : Obligations.ErrorsByCommand := by
  unfold Obligations.ErrorsByCommand
  refine ⟨fun s t i e hcode hexec herr => ?_, fun s t hexec => ?_⟩
  · obtain ⟨p, u, hperm, rfl⟩ := exec_error hcode hexec herr
    exact hperm
  · obtain ⟨-, hend⟩ := runCommand_eq_next.mp hexec
    obtain rfl := Outcome.next.inj hend
    rfl

end Sys2Proof.Proofs
end

section
/-! PROOFS. Reset (spec/70_reset_and_hazards.md R440 to R443): the configuration and the registers after it, and the
hazards of host writes while a command is in progress (R445, R446). -/

namespace Sys2Proof.Machine

open Host

/-! ### Reset (R440 to R443) -/

section Reset
variable {s : State}

/-- Whatever the open values are, the configuration at reset is within R9, R14, R15, R156 and R83. -/
theorem defaultConfig_ok : defaultConfig.Ok := by
  have hopen : defaultConfig.bufPixels = 1073741793 - Config.freeBufPixels % 1073741793 := rfl
  refine ⟨?_, ?_, Nat.succ_pos _, Nat.mul_mod_right 256 _, rfl, rfl⟩
  · omega
  · omega

/-- The platform reset gives every register the value it has after reset. -/
theorem readReg_resetCore (s : State) (r : Reg) : readReg (resetCore s) r = readReg State.reset r := by
  cases r <;> rfl

theorem step_of_reset {rest : List HostOp} (hhost : s.host = .reset :: rest) :
    step s = .next (resetCore { s with host := rest }) := by
  simp only [step, agentsMove, hhost, hostMove]

end Reset

/-! ### Writes while BUSY (R445, R446) -/

section Hazards
variable {s : State}

theorem writeCmd_of_busy (hb : s.status.busy = true) (v : Word) : writeCmd v s = .fault .cmdWhileBusy := by
  simp [writeCmd, hb]

theorem writeAt_operand_of_busy {r : Reg} (ho : r.isOperand = true) (hb : s.status.busy = true) (v : Word) :
    writeAt r v s = .fault .operandWhileBusy := by
  have hc : r ≠ .cmd := by rintro rfl; simp [Reg.isOperand] at ho
  simp [writeAt, hc, ho, hb]

/-- The offsets of P_WIDTH, P_HEIGHT, P_BPL and ARG0 to ARG2 (spec/10_state.md R34) reach operand registers. -/
theorem operand_offsets : ∀ offset ∈ [0x1C, 0x20, 0x24, 0x28, 0x2C, 0x30],
    accessRefusal 32 offset = none ∧ (regAt offset).isOperand = true := by decide

end Hazards

end Sys2Proof.Machine

namespace Sys2Proof.Proofs

open Sys2Proof Sys2Proof.Machine Host

/-- Settles O51: with no Image and an idle core only the configuration needs an argument. -/
theorem resetMeetsInvariant : Obligations.ResetMeetsInvariant := by
  unfold Obligations.ResetMeetsInvariant
  exact ⟨defaultConfig_ok, imageOk_none _, ⟨nofun, fun _ => rfl⟩, by simp [State.reset], by simp [State.reset], nofun⟩

/-- Settles O53: register by register. -/
theorem resetRegisterValues : Obligations.ResetRegisterValues := by
  unfold Obligations.ResetRegisterValues
  refine ⟨fun r => ?_, rfl, rfl, rfl, rfl, rfl, rfl, rfl⟩
  cases r <;> rfl

/-- Settles O54: the reset leaves no Image, which every command that reads one asks for first. -/
theorem platformResetLeavesNothingReadable : Obligations.PlatformResetLeavesNothingReadable := by
  unfold Obligations.PlatformResetLeavesNothingReadable
  intro s rest hhost
  refine ⟨_, step_of_reset hhost, readReg_resetCore _, rfl, rfl, rfl, rfl, rfl, fun i hi => ?_⟩
  obtain ⟨check, parts, hemitter, hcheck⟩ := emitter_of_absent s.cfg (img := Image.none) rfl
    (i := i) (by simp only [List.mem_cons] at hi ⊢; tauto)
  obtain ⟨u, hu, hended, -⟩ := exec_emitter_of_error (s := resetCore { s with host := rest }) rfl hemitter hcheck
  obtain ⟨hstatus, -, -, hout, -⟩ := hended
  exact ⟨u, hu, hstatus, hout⟩

/-- Settles O59: CMD and the operand registers each look at BUSY before anything else. -/
theorem writesWhileBusyFault : Obligations.WritesWhileBusyFault := by
  unfold Obligations.WritesWhileBusyFault
  intro s v hb
  have hcmd : hostWrite 32 0x04 v s = writeCmd v s := rfl
  refine ⟨hcmd.trans (writeCmd_of_busy hb v), fun offset hoffset => ?_⟩
  obtain ⟨haccess, ho⟩ := operand_offsets offset hoffset
  rw [hostWrite_of_access haccess, writeAt_operand_of_busy ho hb]

end Sys2Proof.Proofs
end

section
/-! PROOFS. Every command ends (spec/70_reset_and_hazards.md R452, spec/41_rle_decoder.md R195): no buffer access of a
command leaves its range (spec/20_memory.md R78), so it succeeds, fails with an error, or waits for a silent port. -/

namespace Sys2Proof.Machine

open Host

/-! ### Pieces that stay inside the buffers (R78) -/

/-- The piece is not refused: every buffer access of it is in range. -/
def Reply.InRange {α : Type} (r : Reply α) : Prop := ∀ why, r ≠ .refuse why

section Pieces
variable {α β : Type} {p : Ports}

@[simp] theorem ok_inRange {a : α} : (Reply.ok a p).InRange := fun _ => nofun
@[simp] theorem error_inRange {e : CmdError} : (Reply.error (α := α) e p).InRange := fun _ => nofun
@[simp] theorem stall_inRange : (Reply.stall (α := α) p).InRange := fun _ => nofun
@[simp] theorem refuse_not_inRange {why : Refusal} : ¬ (Reply.refuse (α := α) why).InRange := fun h => h why rfl

@[simp] theorem andThen_inRange {r : Reply α} {k : α → Ports → Reply β} :
    (r.andThen k).InRange ↔ r.InRange ∧ ∀ a q, r = .ok a q → (k a q).InRange := by
  cases r <;> simp

@[simp] theorem require_inRange {c : Bool} {e : CmdError} : (require c e p).InRange := by
  cases c <;> simp [require]

/-- A request to a port accesses no buffer. -/
theorem answer_inRange {served : Ports → Reply α} {failed : Nat → Ports → Reply α}
    (hserved : ∀ q, (served q).InRange) (hfailed : ∀ n q, (failed n q).InRange) :
    (answer p served failed).InRange := by
  unfold answer
  split
  · exact hserved p
  · exact hserved _
  · exact hfailed _ _
  · exact stall_inRange

@[simp] theorem readExact_inRange (n : Nat) : (readExact n p).InRange :=
  answer_inRange (fun q => by split <;> simp) fun _ _ => error_inRange

@[simp] theorem skip_inRange (n : Nat) : (skip n p).InRange :=
  answer_inRange (fun q => by split <;> simp) fun _ _ => error_inRange

@[simp] theorem readByte_inRange : (readByte p).InRange :=
  answer_inRange (fun q => by split <;> simp) fun _ _ => error_inRange

@[simp] theorem writeAll_inRange (parts : List (List Byte)) : (writeAll parts p).InRange := by
  unfold writeAll
  dsimp only
  split <;> simp

@[simp] theorem readData_inRange (n : Nat) : (readData n p).InRange :=
  andThen_inRange.mpr ⟨readExact_inRange n, fun r q _ => by cases r <;> simp⟩

theorem readBytesOr_inRange (n : Nat) : (readBytesOr n p).InRange := by
  induction n generalizing p with
  | zero => exact ok_inRange
  | succ n ih => simp [readBytesOr, ih]

theorem scanLoop_inRange (n : Nat) : (scanLoop n p).InRange := by
  induction n generalizing p with
  | zero => exact ok_inRange
  | succ n ih =>
    refine andThen_inRange.mpr ⟨readByte_inRange, fun c q _ => ?_⟩
    cases c with
    | none => exact ok_inRange
    | some b => dsimp only; split_ifs; exacts [ih, ok_inRange, ok_inRange]

theorem resolvePalette_inRange (fb : List Rgb) : (resolvePalette fb p).InRange := by
  refine andThen_inRange.mpr ⟨scanLoop_inRange _, fun found q _ => ?_⟩
  split
  · exact andThen_inRange.mpr ⟨readBytesOr_inRange 768, fun _ _ _ => ok_inRange⟩
  · exact ok_inRange

theorem headerRead_inRange {cfg : Config} : (headerRead cfg p).InRange := by
  refine andThen_inRange.mpr ⟨readExact_inRange 68, fun r q _ => ?_⟩
  cases r with
  | none => exact error_inRange
  | some b => simp [checkHeader, requireHeight]

theorem fetchCode_inRange : (fetchCode p).InRange := by
  refine andThen_inRange.mpr ⟨readByte_inRange, fun c q _ => ?_⟩
  cases c with
  | none => exact ok_inRange
  | some b =>
    dsimp only
    split
    · exact andThen_inRange.mpr ⟨readByte_inRange, fun d q' _ => by cases d <;> exact ok_inRange⟩
    · exact ok_inRange

end Pieces

/-! ### An Image with buffers of its size -/

section Images
variable {img : Image} {p : Ports}

theorem requireImage_inRange (hwf : Memory.wf img) : (requireImage img p).InRange := by
  by_cases habsent : img.repr = .absent
  · simp [requireImage, require, habsent]
  · rw [requireImage_of_wf p habsent hwf]
    exact ok_inRange

theorem requireIndexed_inRange (hwf : Memory.wf img) : (requireIndexed img p).InRange := by
  cases hrepr : img.repr with
  | indexed =>
    rw [requireIndexed_of_wf p hrepr hwf]
    exact ok_inRange
  | absent | truecolor => simp [requireIndexed, require, hrepr]

theorem requireIcon_inRange (hwf : Memory.wf img) : (requireIcon img p).InRange :=
  andThen_inRange.mpr ⟨requireImage_inRange hwf, fun _ _ _ => require_inRange⟩

end Images

/-! ### A body that suits its command (spec/41_rle_decoder.md R184) -/

section Body
variable {cfg : Config} {s : State} {e e₁ : Engine} {line : List Byte} {p q : Ports}

/-- A scanline is read from inside LINE, and its row fits the staged buffer. -/
theorem emitLine_inRange (hsuits : e.Suits s) (hst : e.Staged) (hy : e.y < e.lines) (hl : line.length = e.lineLen) :
    (emitLine e line p).InRange := by
  by_cases hraw : e.consumer = .raw
  · obtain ⟨hbound, -⟩ := hsuits
    have hread : memRead lineBound line 0 e.lineLen = some line :=
      memRead_eq_some.mpr ⟨by omega, by omega, by simp [← hl]⟩
    simp [emitLine, hraw, hread, write]
  · obtain ⟨e', hemit⟩ := emitLine_of_served (p := p) (ds := p.draws) hsuits hst hy hl
      (by rw [writes_of_not_raw hraw]; rfl)
    rw [hemit]
    exact ok_inRange

/-- Past an emitted scanline the body is the same, and its row is staged. -/
theorem emitLine_nextLine (h : emitLine e line p = .ok e₁ q) (hst : e.Staged) :
    e.SameBody e₁.nextLine ∧ e₁.nextLine.y = e.y + 1 ∧ e₁.nextLine.Staged := by
  obtain ⟨hsame, heq, hrow⟩ := emitLine_ok h
  have hy : e₁.y = e.y := by rw [heq]
  refine ⟨hsame.trans (nextLine_sameBody e₁), congrArg (· + 1) hy, ?_⟩
  rw [Engine.nextLine, hy]
  exact hrow hst

theorem settle_inRange {n : Nat} (hn : n = e.lines - e.y) (hsuits : e.Suits s) (hfits : e.Fits line) :
    (settle cfg n e line p).InRange := by
  induction n generalizing e line p with
  | zero => exact ok_inRange
  | succ n ih =>
    unfold settle
    split
    · exact ok_inRange
    · refine andThen_inRange.mpr
        ⟨emitLine_inRange hsuits hfits.staged hfits.y_lt hfits.line_length, fun e₁ q hemit => ?_⟩
      obtain ⟨hsame, hy₁, hst₁⟩ := emitLine_nextLine hemit hfits.staged
      have hlines := hsame.lines
      have hsuits₁ := suits_of_sameBody hsame hsuits
      obtain ⟨b, hstart⟩ := startLine_exists cfg hsuits₁.1
      have hsame₂ := startLine_sameBody (e' := b.1) (line := b.2) hstart
      have hy₂ := startLine_y (e' := b.1) (line := b.2) hstart
      have hlines₂ := hsame₂.lines
      dsimp only
      split
      · exact ok_inRange
      · rw [show startLine cfg { e₁ with y := e₁.y + 1 } = some b from hstart, inRange_some, andThen_ok]
        exact ih (by omega) (suits_of_sameBody hsame₂ hsuits₁) (startLine_fits hstart (by omega) hst₁)

theorem enterBody_inRange (hsuits : e.Suits s) (hst : e.Staged) (hy : e.y = 0) : (enterBody cfg e p).InRange := by
  unfold enterBody
  split
  · exact ok_inRange
  · obtain ⟨b, hstart⟩ := startLine_exists cfg hsuits.1
    have hsame := startLine_sameBody (e' := b.1) (line := b.2) hstart
    have hy₁ := startLine_y (e' := b.1) (line := b.2) hstart
    rw [hstart, inRange_some, andThen_ok]
    exact settle_inRange (by rw [hsame.lines]; omega) (suits_of_sameBody hsame hsuits)
      (startLine_fits hstart (by omega) hst)

/-- A code's copies have room in LINE, and the scanlines that they end are emitted in range. -/
theorem codeReply_inRange (hsuits : e.Suits s) (hy : e.y < e.lines) (hset : e.Settled line) :
    (codeReply cfg e line p).InRange := by
  have hat := hset.atCode hy
  have hgo : ∀ e₁ line₁ q, CodeDone e line e₁ line₁ → (settle cfg (e₁.lines - e₁.y) e₁ line₁ q).InRange :=
    fun _ _ _ hdone => settle_inRange rfl (suits_of_sameBody (codeDone_sameBody hdone) hsuits)
      (codeDone_fits hdone hy hat hset.staged)
  refine andThen_inRange.mpr ⟨fetchCode_inRange, fun c q _ => ?_⟩
  cases c with
  | none => exact hgo { e with stopped := true } line q (.inl ⟨rfl, rfl⟩)
  | some i =>
    obtain ⟨hx, -, -, hl⟩ := hat
    obtain ⟨e₁, line₁, hwrite⟩ := writeCopies_exists (e := e.load i) hsuits.1 hx.le hl
    simp only [hwrite, inRange_some, andThen_ok]
    exact hgo e₁ line₁ q (.inr ⟨_, _, hwrite⟩)

theorem bodyReply_inRange (n : Nat) (hsuits : e.Suits s) (hset : e.Settled line) :
    (bodyReply cfg n e line p).InRange := by
  induction n generalizing e line p with
  | zero => exact ok_inRange
  | succ n ih =>
    by_cases hy : e.y < e.lines
    · rw [bodyReply, if_pos hy]
      exact andThen_inRange.mpr ⟨codeReply_inRange hsuits hy hset, fun b q hcode =>
        ih (suits_of_sameBody (codeReply_sameBody (e' := b.1) (line' := b.2) hcode) hsuits)
          (codeReply_settled hy hset hcode)⟩
    · rw [bodyReply_of_over _ line p hy]
      exact ok_inRange

theorem runBody_inRange (hsuits : e.Suits s) (hst : e.Staged) (hy : e.y = 0) : (runBody cfg e p).InRange :=
  andThen_inRange.mpr ⟨enterBody_inRange hsuits hst hy, fun b _ henter => bodyReply_inRange _
    (suits_of_sameBody (enterBody_sameBody (e' := b.1) (line := b.2) henter) hsuits)
    (enterBody_settled henter hy hst)⟩

theorem rleReply_inRange : (rleReply s).InRange := by
  refine andThen_inRange.mpr ⟨require_inRange, fun _ q harg => ?_⟩
  obtain ⟨hbound, -⟩ := require_eq_ok.mp harg
  obtain ⟨-, h2⟩ := of_decide_eq_true hbound
  exact runBody_inRange (rawEngine_suits h2) (staged_of_raw rfl) rfl

end Body

/-! ### How a command comes to its end (R452) -/

/-- The outcome is a next state, idle and DONE or waiting for a silent port; idle where `quiet` rules silence out. -/
def Ends (quiet : Prop) (o : Outcome State Fault Refusal) : Prop :=
  ∃ t, o = .next t ∧ (t.phase = .idle ∧ t.status.done = true ∨ t.phase = .stalled) ∧ (quiet → t.phase = .idle)

section Commands
variable {α : Type} {quiet : Prop} {s : State} {p : Ports}

theorem ends_endCommand {st : Status} (hst : st.done = true) : Ends quiet (.next (endCommand st p s)) :=
  ⟨_, rfl, .inl ⟨rfl, hst⟩, fun _ => rfl⟩

theorem ends_stallCommand (h : ¬ quiet) : Ends quiet (.next (stallCommand p s)) :=
  ⟨_, rfl, .inr rfl, fun hq => absurd hq h⟩

theorem ends_conclude {r : Reply α} {effect : α → State → State} (hr : r.InRange) (ha : quiet → r.Answers) :
    Ends quiet (conclude s r effect) := by
  cases r with
  | ok a q => exact ends_endCommand rfl
  | error e q => exact ends_endCommand rfl
  | stall q => exact ends_stallCommand ha
  | refuse why => exact absurd hr refuse_not_inRange

theorem ends_runCommand {body : State → Outcome State Fault Refusal} (hready : s.Ready)
    (h : Ends quiet (body (prologue s))) : Ends quiet (runCommand s body) := by
  rwa [runCommand_of_ready hready]

theorem ends_emitImage {check : Image → Ports → Reply Unit} {parts : Image → List (List Byte)}
    (hr : (check s.image s.ports).InRange) (ha : quiet → (check s.image s.ports).Answers) :
    Ends quiet (emitImage s check parts) :=
  ends_conclude (andThen_inRange.mpr ⟨hr, fun _ _ _ => writeAll_inRange _⟩) fun hq =>
    answers_andThen (ha hq) fun _ _ h => answers_writeAll _ h

/-- A command that has come to its end runs no further code. -/
theorem ends_wholeCommand {o : Outcome State Fault Refusal} (h : Ends quiet o) : Ends quiet (wholeCommand o) := by
  obtain ⟨t, rfl, hend, hidle⟩ := h
  have hno : ∀ e, t.phase ≠ .body e := by
    obtain ⟨hphase, -⟩ | hphase := hend <;> simp [hphase]
  exact ⟨t, bodyLoop_of_no_body hno, hend, hidle⟩

theorem ends_finishBody {e : Engine} (hp : quiet → p.NoSilence) : Ends quiet (finishBody s e p) := by
  unfold finishBody
  split
  · exact ends_endCommand rfl
  · exact ends_endCommand rfl
  · exact ends_conclude (resolvePalette_inRange _) fun hq => answers_resolvePalette _ (hp hq)

/-- A body that comes to its end brings its command to its end. -/
theorem ends_continueBody {r : Reply (Engine × List Byte)} (hr : r.InRange) (ha : quiet → r.Answers)
    (hover : ∀ e line q, r = .ok (e, line) q → ¬ e.y < e.lines) : Ends quiet (continueBody s r) := by
  cases r with
  | ok b q =>
    obtain ⟨e, line⟩ := b
    rw [continueBody, if_neg (hover e line q rfl)]
    exact ends_finishBody ha
  | error e q => exact ends_endCommand rfl
  | stall q => exact ends_stallCommand ha
  | refuse why => exact absurd hr refuse_not_inRange

theorem ends_beginRleDecode (hquiet : quiet → s.ports.NoSilence) : Ends quiet (wholeCommand (beginRleDecode s)) := by
  obtain ⟨line, ph, p, h⟩ := wholeCommand_beginRleDecode s
  rw [h]
  exact ends_continueBody rleReply_inRange (fun hq => answers_rleReply (hquiet hq)) fun _ _ _ he => (rleReply_ends he).1

/-- DECODE with a valid header ends on the degenerate path or with its body. -/
theorem ends_beginDecode_of_header {info : HeaderInfo} (hhdr : headerRead s.cfg s.ports = .ok info p)
    (hp : quiet → p.NoSilence) : Ends quiet (wholeCommand (beginDecode s)) := by
  have hskip : quiet → (skip 60 p).Answers := fun hq => answers_skip (hp hq) 60
  have htail : beginDecode s = decodeTail info { s with hdr := info.hdr } p := by rw [beginDecode, hhdr]
  cases hend : skip 60 p with
  | error e q =>
    rw [htail, decodeTail, hend]
    exact ends_wholeCommand (ends_endCommand rfl)
  | stall q =>
    rw [hend] at hskip
    rw [htail, decodeTail, hend]
    exact ends_wholeCommand (ends_stallCommand hskip)
  | refuse why => exact absurd hend (skip_inRange 60 why)
  | ok degenerate q =>
    cases degenerate with
    | true =>
      rw [htail, decodeTail, hend]
      exact ends_wholeCommand (ends_endCommand rfl)
    | false =>
      obtain ⟨hgeo, hplanes⟩ := headerRead_ok hhdr
      obtain ⟨line, ph, p', h⟩ := wholeCommand_beginDecode_body hhdr hend
      have hsuits : (decodeEngine s.freeIx info).Suits { s with hdr := info.hdr } :=
        decodeEngine_suits rfl hgeo hplanes
      have hstaged : (decodeEngine s.freeIx info).Staged := by simp [Engine.Staged, decodeEngine, stagedImage]
      rw [h]
      exact ends_continueBody (runBody_inRange hsuits hstaged rfl)
        (fun hq => answers_runBody ((hskip hq).of_ok hend)) fun _ _ _ he => (runBody_ends he).1

theorem ends_beginDecode (hquiet : quiet → s.ports.NoSilence) : Ends quiet (wholeCommand (beginDecode s)) := by
  have hread : quiet → (headerRead s.cfg s.ports).Answers := fun hq => answers_headerRead (hquiet hq)
  cases hhdr : headerRead s.cfg s.ports with
  | ok info p => exact ends_beginDecode_of_header hhdr fun hq => (hread hq).of_ok hhdr
  | error e q =>
    rw [beginDecode, hhdr]
    exact ends_wholeCommand (ends_endCommand rfl)
  | stall q =>
    rw [hhdr] at hread
    rw [beginDecode, hhdr]
    exact ends_wholeCommand (ends_stallCommand hread)
  | refuse why => exact absurd hhdr (headerRead_inRange why)

/-- Each command ends: its pieces are in range, and no port leaves it waiting but a silent one. -/
theorem ends_exec {i : Instr} (hcode : ¬ isCodeForm i) (hready : s.Ready) (hwf : Memory.wf s.image) :
    Ends s.NoSilence (exec i s) := by
  have hquiet : s.NoSilence → (prologue s).ports.NoSilence := id
  unfold exec
  cases i with
  | lit v => simp [codeBytes, encode] at hcode
  | run n v => simp [codeBytes, encode] at hcode
  | nop | clear => exact ends_runCommand hready (ends_endCommand rfl)
  | decode => exact ends_runCommand hready (ends_beginDecode hquiet)
  | rleDecode => exact ends_runCommand hready (ends_beginRleDecode hquiet)
  | probe => exact ends_runCommand hready (ends_conclude headerRead_inRange fun h => answers_headerRead h)
  | loadIndexed =>
    refine ends_runCommand hready (ends_conclude (by simp [checkLoad, requireHeight]) fun h => ?_)
    exact answers_andThen (answers_checkLoad h) fun _ _ h => answers_andThen (answers_readData _ h) fun _ _ h =>
      answers_andThen (answers_readData _ h) fun _ _ h => answers_andThen (answers_require h) fun _ _ h => h
  | loadTruecolor =>
    refine ends_runCommand hready (ends_conclude (by simp [checkLoad, requireHeight]) fun h => ?_)
    exact answers_andThen (answers_checkLoad h) fun _ _ h => answers_andThen (answers_readData _ h) fun _ _ h =>
      answers_andThen (answers_require h) fun _ _ h => h
  | rleEncode =>
    refine ends_runCommand hready (ends_conclude (by simp [write]) fun h => ?_)
    exact answers_andThen (answers_require h) fun _ _ h => answers_andThen (answers_readData _ h) fun _ _ h =>
      answers_writeAll _ h
  | readIndex | readPalette =>
    exact ends_runCommand hready (ends_emitImage (requireIndexed_inRange hwf) fun h => answers_requireIndexed h)
  | readPixels | writePcx | writeBmp | writeBmpa =>
    exact ends_runCommand hready (ends_emitImage (requireImage_inRange hwf) fun h => answers_requireImage h)
  | writeIco =>
    exact ends_runCommand hready (ends_emitImage (requireIcon_inRange hwf) fun h => answers_requireIcon h)

end Commands

end Sys2Proof.Machine

namespace Sys2Proof.Proofs

open Sys2Proof Sys2Proof.Machine Host

/-- Settles O49: no access leaves its buffer, and every code of a body takes a byte or is the last. -/
theorem everyCommandEnds : Obligations.EveryCommandEnds := by
  unfold Obligations.EveryCommandEnds
  exact fun s i hcode hready hwf => ends_exec hcode hready hwf

end Sys2Proof.Proofs
end
